-- ==== Sys2Proof/Word.lean ====
section
/-! DEFINITION. The word types of the block (00_scope.md R10, R11). -/

namespace Sys2Proof

/-- One byte of host memory or of a composite slot. -/
abbrev Byte := BitVec 8

/-- One DMA unit: 16 bits in Mono, a zero-extended byte elsewhere (20_memory.md R52). -/
abbrev Halfword := BitVec 16

/-- A host-visible register (R10: every one is 32 bits wide). -/
abbrev Word := BitVec 32

/-- A byte address; addresses are 32 bits and wrap modulo 2^32 (R10). -/
abbrev Addr := BitVec 32

end Sys2Proof
end

