-- ==== Sys2Proof/Config.lean ====
section
/-! DEFINITION. What one machine fixes: the parameters of 00_scope.md R8 and R9, the ROM tables (10_state.md R37)
and the free values. An OPEN parameter is an opaque constant: nothing can be proved of it but the constraint that
the spec's table gives it, which holds by construction (log 10). -/

namespace Sys2Proof

/-- The two composite standards (00_scope.md R9). -/
inductive Standard where
  | ntsc
  | pal
deriving DecidableEq, Repr, Inhabited

/-- The class of a composite line outside the active picture (00_scope.md R9, `C_CLASS`). -/
inductive LineClass where
  | blank
  | white
  | outside
deriving DecidableEq, Repr, Inhabited

namespace Config

/-! ### Fixed values (00_scope.md R8). -/

/-- `F_MCK`, the master clock in Hz. PRESUMED by the spec itself (decision D6, log 27). -/
abbrev fMck : Nat := 84000000
/-- `XSCALE_MIN`. -/
abbrev xscaleMin : Nat := 2
/-- `XSCALE_MAX`. -/
abbrev xscaleMax : Nat := 16
/-- `SLACK_MAX`. -/
abbrev slackMax : Nat := 49
/-- `YSCALE_MIN`. -/
abbrev yscaleMin : Nat := 1
/-- `YSCALE_MAX`. -/
abbrev yscaleMax : Nat := 8
/-- `COLOR_XSCALE_MIN`. -/
abbrev colorXscaleMin : Nat := 6
/-- `COLOR_HEIGHT_MAX`. -/
abbrev colorHeightMax : Nat := 380
/-- `WIDTH_MIN`. -/
abbrev widthMin : Nat := 8
/-- `WIDTH_MAX`. -/
abbrev widthMax : Nat := 800

/-! ### Addresses (20_memory.md R50; PRESUMED, log 4). -/

/-- The first byte of SRAM. -/
abbrev sramBase : Nat := 0x20000000
/-- The bytes of SRAM (the upper bound of `FB_CAPACITY_BYTES` in R8). -/
abbrev sramSize : Nat := 98304
/-- The first byte of the bit-band alias of SRAM. -/
abbrev aliasBase : Nat := 0x22000000

/-! ### OPEN parameters of 00_scope.md R8. -/

/-- `HMARGIN_CLK`, any natural number. (70_reset_and_hazards.md R191 lists the values with which the machine is free of
hazards and the source's example starts; a model may take others.) -/
opaque hmarginClk : Nat

opaque fbCapacityOpen : Nat
/-- `FB_CAPACITY_BYTES`, any value with 76,800 ≤ value ≤ 98,304. -/
def fbCapacityBytes : Nat := 76800 + fbCapacityOpen % 21505

opaque blockBaseOpen : BitVec 24
/-- `BLOCK_BASE`, any 256-byte aligned address. -/
def blockBase : Addr := blockBaseOpen ++ 0#8

opaque dmaLatMaxOpen : Nat
/-- `DMA_LAT_MAX`: at most the NTSC line period, as 44_composite.md R147 needs (log 10). -/
def dmaLatMax : Nat := dmaLatMaxOpen % 5325

/-! ### Composite parameters of 00_scope.md R9. -/

/-- `C_WIDTH`. -/
abbrev cWidth : Nat := 320

/-- `C_HEIGHT`. -/
def cHeight : Standard → Nat
  | .ntsc => 200
  | .pal => 240

/-- `C_CYCLE`, the subcarrier cycle length in table rows. -/
def cCycle : Standard → Nat
  | .ntsc => 88
  | .pal => 30

/-- `C_HTOTAL_CLK`, the line period in master clocks. -/
def cHtotalClk : Standard → Nat
  | .ntsc => 5324
  | .pal => 5376

/-- `C_TOTAL`, lines per frame. -/
def cTotal : Standard → Nat
  | .ntsc => 262
  | .pal => 312

opaque cLockOffOpen : Standard → Nat
/-- `C_LOCK_OFF_CLK`, any value with `C_LOCK_OFF_CLK + 1 < C_HTOTAL_CLK` (R9, R147). -/
def cLockOffClk (std : Standard) : Nat := cLockOffOpen std % (cHtotalClk std - 1)

/-- `C_PRE_LEN`, preamble samples per line. -/
opaque cPreLen : Standard → Nat

opaque cTailLen : Standard → Nat
/-- `C_SLOT_LEN`, any value that is at least `C_PRE_LEN + 320`. -/
def cSlotLen (std : Standard) : Nat := cPreLen std + cWidth + cTailLen std

opaque cNvarOpen : Standard → Nat
/-- `C_NVAR`, 1 or 2 preamble variants. -/
def cNvar (std : Standard) : Nat := 1 + cNvarOpen std % 2

/-- `C_TEMPLATE[v][i]`. -/
opaque cTemplate : Standard → Nat → Nat → Byte

/-- `PT[p][r]`, the sample of pixel value `p` at row `r`. -/
opaque pt : Standard → Byte → Nat → Byte

opaque cPfixoffOpen : Standard → Nat
/-- `C_PFIXOFF`, any value below `C_CYCLE`. -/
def cPfixoff (std : Standard) : Nat := cPfixoffOpen std % cCycle std

opaque cPstrideOpen : Standard → Nat
/-- `C_PSTRIDE`, any value with `1 ≤ C_PSTRIDE ≤ C_CYCLE`. -/
def cPstride (std : Standard) : Nat := 1 + cPstrideOpen std % cCycle std

opaque cPoffOpen : Standard → Nat
/-- `C_POFF`, any value below `C_CYCLE`. -/
def cPoff (std : Standard) : Nat := cPoffOpen std % cCycle std

opaque cActStartOpen : Standard → Nat
/-- `C_ACT_START`, any value with `C_ACT_START + C_HEIGHT ≤ C_TOTAL`. -/
def cActStart (std : Standard) : Nat := cActStartOpen std % (cTotal std - cHeight std + 1)

/-- `C_CLASS(line)`. -/
opaque cClass : Standard → Nat → LineClass

/-- `C_BLANKPAT[i]`. -/
opaque cBlankpat : Standard → Nat → Byte

/-- `C_WHITEPAT[i]`. -/
opaque cWhitepat : Standard → Nat → Byte

opaque cSampleClkOpen : Standard → Nat
/-- `C_SAMPLE_CLK`, any value with `DMA_LAT_MAX + C_SLOT_LEN × C_SAMPLE_CLK ≤ C_HTOTAL_CLK` (R147, log 10). -/
def cSampleClk (std : Standard) : Nat :=
  min (cSampleClkOpen std) ((cHtotalClk std - dmaLatMax) / cSlotLen std)

/-! ### Free values: the spec's draws (92_eei_decisions.md, its last table) and the values it leaves open.
Each is applied to the counter `State.draws`, the choices of a race to the counter `State.races`, so that every draw
is a fresh one (log 11). -/

/-- The draw behind `FB_BASE` (41_framebuffer.md R88). -/
opaque drawFbBase : Nat → Nat

/-- The draw behind `d`, the initial line-timer count (42_sequencer.md R102). -/
opaque drawLtCount : Nat → Nat

/-- The draw behind `DMA_LAT` (43_scanline_vga.md R121). -/
opaque drawDmaLat : Nat → Nat

/-- Whether unit `k` of the transfer in flight takes the new value of a racing host write (20_memory.md R56). -/
opaque drawRace : Nat → Nat → Bool

/-- `a mod 0`, which 00_scope.md R11 does not define (log 16). -/
opaque modByZero : Nat → Nat

end Config

/-- The composite parameters of one standard in one record, so that the encoder (44_composite.md) is a function of
them and can be checked on the example values of 95_test_vectors.md. -/
structure CompositeParams where
  /-- `C_CYCLE` -/
  cycle : Nat
  /-- `C_PRE_LEN` -/
  preLen : Nat
  /-- `C_NVAR` -/
  nvar : Nat
  /-- `C_TEMPLATE` -/
  template : Nat → Nat → Byte
  /-- `PT` -/
  pt : Byte → Nat → Byte
  /-- `C_PFIXOFF` -/
  pfixoff : Nat
  /-- `C_PSTRIDE` -/
  pstride : Nat
  /-- `C_POFF` -/
  poff : Nat
  /-- `C_ACT_START` -/
  actStart : Nat
  /-- `C_HEIGHT` -/
  height : Nat
  /-- `C_TOTAL` -/
  total : Nat
  /-- `C_CLASS` -/
  lineClass : Nat → LineClass
  /-- `C_BLANKPAT` -/
  blankpat : Nat → Byte
  /-- `C_WHITEPAT` -/
  whitepat : Nat → Byte

/-- The parameters of the machine's own composite path (00_scope.md R9). -/
def Config.composite (std : Standard) : CompositeParams where
  cycle := Config.cCycle std
  preLen := Config.cPreLen std
  nvar := Config.cNvar std
  template := Config.cTemplate std
  pt := Config.pt std
  pfixoff := Config.cPfixoff std
  pstride := Config.cPstride std
  poff := Config.cPoff std
  actStart := Config.cActStart std
  height := Config.cHeight std
  total := Config.cTotal std
  lineClass := Config.cClass std
  blankpat := Config.cBlankpat std
  whitepat := Config.cWhitepat std

end Sys2Proof
end

