-- ==== Sys2Proof/Syntax.lean ====
section
/-! DEFINITION. The operations of the block: one constructor per row of the opcode map (30_encoding.md R62). -/

namespace Sys2Proof

/-- One operation. `sel` is the SEL field, the number in bits [15:8] (30_encoding.md R60, R63). The commands take
their other operands from ARG0 to ARG3 when they start (R61, R63). -/
inductive Instr where
  /-- BEGIN: start a VGA mode (45_lifecycle.md R154). -/
  | begin (sel : Nat)
  /-- BEGIN_COMPOSITE: start NTSC or PAL (45_lifecycle.md R158). -/
  | beginComposite (sel : Nat)
  /-- END: stop the running mode (45_lifecycle.md R159). -/
  | endMode
  /-- SET_MONITOR_RANGE (45_lifecycle.md R160). -/
  | setMonitorRange
  /-- SET_PIXEL (41_framebuffer.md R92). -/
  | setPixel
  /-- GET_PIXEL (41_framebuffer.md R93). -/
  | getPixel
  /-- WAIT_VBLANK (45_lifecycle.md R162). -/
  | waitVblank
  /-- WAIT_ACTIVE (45_lifecycle.md R163). -/
  | waitActive
  /-- EV_LT: the line-timer handler (43_scanline_vga.md R113). -/
  | evLt
  /-- EV_HC: the horizontal-compare handler (43_scanline_vga.md R124). -/
  | evHc
  /-- EV_DMAC: the DMA-completion handler (43_scanline_vga.md R125). -/
  | evDmac
deriving DecidableEq, Repr

end Sys2Proof
end

