-- ==== Sys2Proof/Machine/State.lean ====
section
/-! DEFINITION. The state of the block: the internal state S, the peripheral state P (10_state.md R15), host memory,
and the model's own fields. Plain data. INVENTORY.md lists every field with its rule. -/

namespace Sys2Proof.Machine

/-- S.life (10_state.md R21). `Configuring` is never visible (45_lifecycle.md R151). -/
inductive Life where
  | off
  | running
deriving DecidableEq, Repr

/-- S.mode (00_scope.md R2, 10_state.md R21). -/
inductive Mode where
  | off
  | mono
  | color
  | ntsc
  | pal
deriving DecidableEq, Repr

/-- The timing record S.tim (10_state.md R22). -/
structure Timing where
  /-- `xscale`, master clocks per pixel -/
  xscale : Nat
  /-- `yscale`, physical lines per logical line -/
  yscale : Nat
  /-- `htotal`, pixels -/
  htotal : Nat
  /-- `hss`, pixels -/
  hss : Nat
  /-- `hse`, pixels -/
  hse : Nat
  /-- `vtotal`, logical lines -/
  vtotal : Nat
  /-- `vss`, logical lines -/
  vss : Nat
  /-- `vse`, logical lines -/
  vse : Nat
  /-- `htotal_clk`, master clocks -/
  htotalClk : Nat
  /-- `hs_start_clk`, master clocks -/
  hsStartClk : Nat
  /-- `hs_width_clk`, master clocks -/
  hsWidthClk : Nat
  /-- `lock_off_clk`, the expected PWM count at LT, `E` -/
  lockOffClk : Nat
  /-- `fline_hz` -/
  flineHz : Nat
  /-- `fframe_mhz` -/
  fframeMhz : Nat
  /-- `cycle`, table rows (composite only) -/
  cycle : Nat
deriving DecidableEq, Repr

/-- S.tim at reset and while Off: every field 0 (70_reset_and_hazards.md R178, 45_lifecycle.md R153). -/
def Timing.reset : Timing := ⟨0, 0, 0, 0, 0, 0, 0, 0, 0, 0, 0, 0, 0, 0, 0⟩

/-- The frame-buffer record S.fb (10_state.md R23). -/
structure FrameBuffer where
  /-- a buffer is allocated -/
  valid : Bool
  /-- byte address of the buffer -/
  base : Addr
  /-- pixels per row -/
  width : Nat
  /-- rows -/
  height : Nat
  /-- Mono: 16-bit words per line -/
  wpl : Nat
  /-- bits per row (Mono) or bytes per row -/
  stride : Nat
  /-- bytes of the buffer -/
  size : Nat
  /-- Mono: bit-band alias address of `base` -/
  aliasAddr : Addr
  /-- bytes per line transfer -/
  xfer : Nat
deriving DecidableEq, Repr

/-- S.fb at reset and after release (41_framebuffer.md R89). -/
def FrameBuffer.reset : FrameBuffer := ⟨false, 0, 0, 0, 0, 0, 0, 0, 0⟩

/-- The monitor window S.win in Hz (10_state.md R26). -/
structure Window where
  hmin : Word
  hmax : Word
  vmin : Word
  vmax : Word
deriving DecidableEq, Repr

/-- The argument registers ARG0 to ARG3 (10_state.md R18). -/
structure Args where
  a0 : Word
  a1 : Word
  a2 : Word
  a3 : Word
deriving DecidableEq, Repr

/-- The PWM, P.pwm (10_state.md R28). -/
structure Pwm where
  en : Bool
  cnt : Nat
  period : Nat
  width : Nat
  /-- true: active-low -/
  pol : Bool
deriving DecidableEq, Repr

/-- The line timer, P.lt (10_state.md R29). -/
structure LineTimer where
  en : Bool
  cnt : Nat
  period : Nat
deriving DecidableEq, Repr

/-- Where a transfer goes (10_state.md R30). -/
inductive DmaDst where
  | none
  | spi
  | port
deriving DecidableEq, Repr

/-- The transfer in flight (10_state.md R40, 43_scanline_vga.md R121, 20_memory.md R56). -/
structure Flight where
  /-- ticks since the transfer started -/
  age : Nat
  /-- the DMA_LAT drawn for it (R121) -/
  lat : Nat
  /-- the source address it started from, or the slot's tag (44_composite.md R138) -/
  origin : Addr
  /-- it reads a composite slot, which no host access writes -/
  fromSlot : Bool
  /-- the raster position of the LT execution that started it: in VGA the line it sends, in NTSC and PAL one line later
  than the line its slot holds (R131, log 21) -/
  frame : Word
  line : BitVec 16
  sub : BitVec 4
  /-- the value of each unit, as the writes since the start leave it (R56) -/
  units : List Halfword
deriving DecidableEq, Repr

/-- No transfer has started yet. -/
def Flight.reset : Flight := ⟨0, 0, 0, false, 0, 0, 0, []⟩

/-- The DMA channel, P.dma (10_state.md R30), with the transfer in flight. -/
structure Dma where
  busy : Bool
  src : Addr
  len : Nat
  unit : Nat
  dst : DmaDst
  done : Bool
  irq : Bool
  flight : Flight
deriving DecidableEq, Repr

/-- P.dma at reset and after disarm (42_sequencer.md R106). -/
def Dma.reset : Dma := ⟨false, 0, 0, 1, .none, false, false, Flight.reset⟩

/-- The SPI, P.spi (10_state.md R31). -/
structure Spi where
  en : Bool
  /-- master clocks per bit -/
  div : Nat
  bits : Nat
deriving DecidableEq, Repr

/-- The parallel port, P.port (10_state.md R31). -/
structure Port where
  en : Bool
  /-- master clocks per byte -/
  div : Nat
deriving DecidableEq, Repr

/-- The hsync pin (10_state.md R32). -/
inductive HsyncRoute where
  | hiZ
  | pwm
deriving DecidableEq, Repr

/-- The vsync pin (10_state.md R32). -/
inductive VsyncRoute where
  | hiZ
  | out
deriving DecidableEq, Repr

/-- The mono video-data pin (10_state.md R32). -/
inductive DataRoute where
  | hiZ
  | gpioLow
  | spi
deriving DecidableEq, Repr

/-- The parallel output pins (10_state.md R32). -/
inductive PortRoute where
  | hiZ
  | port
deriving DecidableEq, Repr

/-- GPIO routing, P.gpio (10_state.md R32). -/
structure Gpio where
  hsync : HsyncRoute
  vsync : VsyncRoute
  vlevel : Bool
  data : DataRoute
  port : PortRoute
deriving DecidableEq, Repr

/-- Every pin at high impedance (R32, R178). -/
def Gpio.reset : Gpio := ⟨.hiZ, .hiZ, false, .hiZ, .hiZ⟩

/-- The interrupt sources (60_exceptions.md R170). -/
inductive Source where
  | lt
  | hc
  | dma
deriving DecidableEq, Repr

/-- One source's lines in the interrupt controller (10_state.md R33). -/
structure IrqLine where
  en : Bool
  pend : Bool
  /-- a lower number is a higher priority (42_sequencer.md R99) -/
  prio : Nat
deriving DecidableEq, Repr

/-- A source's lines at reset (R178). -/
def IrqLine.reset : IrqLine := ⟨false, false, 3⟩

/-- The interrupt controller, P.nvic (10_state.md R33). -/
structure Nvic where
  lt : IrqLine
  hc : IrqLine
  dma : IrqLine
  /-- the CPU's global interrupt enable -/
  global : Bool
deriving DecidableEq, Repr

/-- P.nvic at reset and after disarm (R178, R106). -/
def Nvic.reset : Nvic := ⟨.reset, .reset, .reset, false⟩

/-- Host memory: (address, byte) pairs, addresses strictly rising, no byte 0. An unlisted address reads 0 (log 3). -/
abbrev Memory := List Host.Cell

/-- The width of a host bus access (20_memory.md R49, R51). -/
inductive Width where
  | byte
  | half
  | word
deriving DecidableEq, Repr

/-- One host bus access (10_state.md R14). The two `reg` forms are accesses to `BLOCK_BASE + off`, given by the
offset in the register window; the two `bus` forms carry the whole address (log 5). -/
inductive HostAccess where
  | regRead (off : BitVec 8) (width : Width)
  | regWrite (off : BitVec 8) (width : Width) (value : Word)
  | busRead (addr : Addr) (width : Width)
  | busWrite (addr : Addr) (width : Width) (value : Word)
deriving DecidableEq, Repr

/-- One thing the host does next: an access, or letting one master clock pass (log 1). -/
inductive HostMove where
  | access (a : HostAccess)
  | idle
deriving DecidableEq, Repr

/-- The WAIT that holds the host (45_lifecycle.md R162, R163). -/
inductive WaitFor where
  | vblank
  | active
deriving DecidableEq, Repr

/-- The record of a completed transfer: the raster position at its start, and its units (43_scanline_vga.md R131,
log 21). -/
structure SentLine where
  frame : Word
  line : BitVec 16
  sub : BitVec 4
  units : List Halfword
deriving DecidableEq, Repr

/-- The whole state (10_state.md R15). -/
structure State where
  /-- S.life -/
  life : Life
  /-- S.mode -/
  mode : Mode
  /-- S.tim -/
  tim : Timing
  /-- S.fb -/
  fb : FrameBuffer
  /-- S.line -/
  line : BitVec 16
  /-- S.sub -/
  sub : BitVec 4
  /-- S.phase -/
  phase : BitVec 8
  /-- S.frame -/
  frame : Word
  /-- S.synced -/
  synced : Bool
  /-- S.armed -/
  armed : Bool
  /-- S.ldpend -/
  ldpend : Bool
  /-- S.vsync -/
  vsync : Bool
  /-- S.vpol -/
  vpol : Bool
  /-- S.cslot[0] -/
  cslot0 : List Byte
  /-- S.cslot[1] -/
  cslot1 : List Byte
  /-- S.win -/
  win : Window
  /-- S.status, the STATUS register -/
  status : Word
  /-- S.result, the RESULT register -/
  result : Word
  /-- S.arg[0..3] -/
  args : Args
  /-- S.cfg, CFG[1:0] -/
  cfg : BitVec 2
  /-- S.fault, FAULT[5:0] -/
  fault : BitVec 6
  /-- P.pwm -/
  pwm : Pwm
  /-- P.lt -/
  lt : LineTimer
  /-- P.dma -/
  dma : Dma
  /-- P.spi -/
  spi : Spi
  /-- P.port -/
  port : Port
  /-- P.gpio -/
  gpio : Gpio
  /-- P.nvic -/
  nvic : Nvic
  /-- P.bus.dma_first -/
  dmaFirst : Bool
  /-- P.cpu.sleep -/
  sleep : Bool
  /-- host memory M -/
  mem : Memory
  /-- the model's own: what the host does next (log 1) -/
  inbox : List HostMove
  /-- the model's own: the WAIT the host is held in (R162, R163) -/
  waiting : Option WaitFor
  /-- the model's own: the value of the last host read (R17) -/
  busData : Word
  /-- the model's own: the last completed transfer (R131) -/
  lastSent : Option SentLine
  /-- the model's own: the counter of the draws of FB_BASE, the initial line-timer count and DMA_LAT (log 11) -/
  draws : Nat
  /-- the model's own: the counter of the old-or-new choices of a race, one for each racing host write (log 11) -/
  races : Nat
deriving DecidableEq, Repr

/-- The machine right after power-on reset (70_reset_and_hazards.md R178). -/
def State.reset : State where
  life := .off
  mode := .off
  tim := .reset
  fb := .reset
  line := 0
  sub := 0
  phase := 0
  frame := 0
  synced := false
  armed := false
  ldpend := false
  vsync := false
  vpol := false
  cslot0 := []
  cslot1 := []
  win := ⟨27000, 83000, 57, 70⟩
  status := 0
  result := 0
  args := ⟨0, 0, 0, 0⟩
  cfg := 3
  fault := 0
  pwm := ⟨false, 0, 0, 0, true⟩
  lt := ⟨false, 0, 0⟩
  dma := .reset
  spi := ⟨false, 0, 16⟩
  port := ⟨false, 0⟩
  gpio := .reset
  nvic := .reset
  dmaFirst := false
  sleep := false
  mem := []
  inbox := []
  waiting := none
  busData := 0
  lastSent := none
  draws := 0
  races := 0

/-- Why the machine stops with a fault. (The block's own faults are the bits of the FAULT register, which stop
nothing: 60_exceptions.md R168.) -/
inductive Fault where
  /-- Raised by a host bus access to an address of none of the spaces the block reaches (20_memory.md R43): not the
  register window, not SRAM, not the alias. Safe: the model stops where the platform goes on (log 8). -/
  | unmappedAddress
deriving DecidableEq, Repr

/-- Why the machine refuses to go on. -/
inductive Refusal where
  /-- Raised by `exec` for an operation that has no meaning yet. Safe: the model stops. -/
  | notModelled (mnemonic : String)
  /-- Raised by a host memory access that is not aligned to its width (20_memory.md R51). Safe: it errs toward
  unprovable, as R51 says (log 6). -/
  | misalignedAccess
  /-- Raised by an alias access that is not an aligned 32-bit access; R50 gives only that form. Safe (log 7). -/
  | aliasAccessShape
deriving DecidableEq, Repr

end Sys2Proof.Machine
end

