-- ==== Sys2Proof/Machine/Flags.lean ====
section
/-! DEFINITION. Status codes, the sticky FAULT bits and the registers that show flags (60_exceptions.md R167, R168;
10_state.md R16, R19, R36). The block has no arithmetic condition codes (R36). -/

namespace Sys2Proof.Machine

/-! ### Status codes (60_exceptions.md R167, 45_lifecycle.md R155). -/

/-- 0: success. -/
def statusOk : Word := 0#32
/-- -1: no valid timing found. -/
def statusNoTiming : Word := 0xFFFFFFFF#32
/-- -2: buffer allocation failed. -/
def statusNoMemory : Word := 0xFFFFFFFE#32
/-- -3: color-mode vertical resolution exceeds 380. -/
def statusTooTall : Word := 0xFFFFFFFD#32
/-- -4: unsupported mode requested. -/
def statusBadMode : Word := 0xFFFFFFFC#32
/-- -5: ILLEGAL command word. -/
def statusIllegal : Word := 0xFFFFFFFB#32

/-- `status <- c` (00_scope.md R11). -/
def State.setStatus (s : State) (c : Word) : State := { s with status := c }

/-! ### The FAULT register (60_exceptions.md R168). -/

/-- The sticky fault bits. -/
inductive FaultBit where
  | pixel
  | guard
  | overrun
  | reload
  | rewind
  | bus
deriving DecidableEq, Repr

/-- The bit number of a fault (R168). -/
def FaultBit.index : FaultBit → Nat
  | .pixel => 0
  | .guard => 1
  | .overrun => 2
  | .reload => 3
  | .rewind => 4
  | .bus => 5

/-- `raise Fault(K)`: sets bit K and does nothing else (R168). -/
def State.raiseFault (s : State) (k : FaultBit) : State :=
  { s with fault := s.fault ||| BitVec.ofNat 6 (2 ^ k.index) }

/-- The fault bit is set. -/
def State.hasFault (s : State) (k : FaultBit) : Bool := s.fault.getLsbD k.index

/-- The FAULT register: bits [31:6] read 0 (R168). -/
def State.faultRegister (s : State) : Word := s.fault.setWidth 32

/-! ### The STATE register (10_state.md R19). -/

/-- The MODE field (R19). -/
def Mode.code : Mode → BitVec 3
  | .off => 0
  | .mono => 1
  | .color => 2
  | .ntsc => 3
  | .pal => 4

/-- The STATE register, its fields from bit 10 down to bit 0 (R19). -/
def State.stateRegister (s : State) : Word :=
  0#21 ++ BitVec.ofBool (s.gpio.data == .spi) ++ BitVec.ofBool s.dma.done ++ BitVec.ofBool s.dma.busy
    ++ BitVec.ofBool s.vsync ++ BitVec.ofBool s.ldpend ++ BitVec.ofBool s.armed ++ BitVec.ofBool s.synced
    ++ BitVec.ofBool (s.life == .running) ++ s.mode.code

/-! ### Registers that show the raster and the polarity (10_state.md R16, R20). -/

/-- LINE: `{12'b0, S.sub, S.line}` (R16). -/
def State.lineRegister (s : State) : Word := 0#12 ++ s.sub ++ s.line

/-- PHASE: `zext_32(S.phase)` (R16). -/
def State.phaseRegister (s : State) : Word := s.phase.setWidth 32

/-- CFG: bits [31:2] read 0 (R20). -/
def State.cfgRegister (s : State) : Word := s.cfg.setWidth 32

/-- CFG bit 0, HPOL: the hsync pulse is active-low (R20). -/
def State.hpol (s : State) : Bool := s.cfg.getLsbD 0

/-- CFG bit 1, VPOL: the vsync pulse is active-low (R20). -/
def State.vpolCfg (s : State) : Bool := s.cfg.getLsbD 1

end Sys2Proof.Machine
end

