-- ==== Sys2Proof/Machine/Operands.lean ====
section
/-! DEFINITION. The operand forms of the commands (30_encoding.md R62, R63, R65). Every ARG value is an unsigned
32-bit number; nothing is sign-extended, scaled or shifted. -/

namespace Sys2Proof.Machine

/-- BEGIN: `w = ARG0` (R63). -/
abbrev State.argWidth (s : State) : Nat := s.args.a0.toNat

/-- BEGIN: `h = ARG1` (R63). -/
abbrev State.argHeight (s : State) : Nat := s.args.a1.toNat

/-- SET_PIXEL and GET_PIXEL: `x = ARG0` (R63). -/
abbrev State.argX (s : State) : Nat := s.args.a0.toNat

/-- SET_PIXEL and GET_PIXEL: `y = ARG1` (R63). -/
abbrev State.argY (s : State) : Nat := s.args.a1.toNat

/-- SET_PIXEL in Mono: only `value[0]` counts (R63, 41_framebuffer.md R92). -/
abbrev State.argBit (s : State) : Bool := s.args.a2.getLsbD 0

/-- SET_PIXEL in the other modes: only `value[7:0]` counts (R63, 41_framebuffer.md R92). -/
abbrev State.argByte (s : State) : Byte := s.args.a2.setWidth 8

/-- SET_MONITOR_RANGE: `hMin`, `hMax`, `vMin`, `vMax` (R63). -/
abbrev State.argWindow (s : State) : Window := ⟨s.args.a0, s.args.a1, s.args.a2, s.args.a3⟩

/-- BEGIN's SEL: 0 or 1 is Mono, 2 is Color; any other is an unsupported mode (R62, R65, 45_lifecycle.md R154). -/
def beginMode (sel : Nat) : Option Mode :=
  if sel = 0 ∨ sel = 1 then some .mono else if sel = 2 then some .color else none

/-- BEGIN_COMPOSITE's SEL: 3 is NTSC, 4 is PAL; any other is an unsupported mode (R62, R65, 45_lifecycle.md R158). -/
def compositeStandard (sel : Nat) : Option Standard :=
  if sel = 3 then some .ntsc else if sel = 4 then some .pal else none

/-- The composite standard a mode shows, if it is a composite mode (00_scope.md R9). -/
def Mode.standard : Mode → Option Standard
  | .off => none
  | .mono => none
  | .color => none
  | .ntsc => some .ntsc
  | .pal => some .pal

/-- The mode of a composite standard (45_lifecycle.md R158). -/
def modeOfStandard : Standard → Mode
  | .ntsc => .ntsc
  | .pal => .pal

/-- The bytes of a host access (20_memory.md R51). -/
def Width.bytes : Width → Nat
  | .byte => 1
  | .half => 2
  | .word => 4

end Sys2Proof.Machine
end

