-- ==== Sys2Proof/Machine/Ops.lean ====
section
/-! DEFINITION. The shared operations: host memory (20_memory.md R44, R46, R56), arithmetic of 00_scope.md R11, the
interrupt controller with the entry to a handler and the return from it (60_exceptions.md R171 to R175), and the
raster predicates (45_lifecycle.md R161). -/

namespace Sys2Proof.Machine

/-! ### Arithmetic (00_scope.md R11). -/

/-- `even_down(v)`. -/
def evenDown (v : Nat) : Nat := v - v % 2

/-- `ceil(a/b)`. -/
def ceilDiv (a b : Nat) : Nat := (a + b - 1) / b

/-- `a mod p` for a period `p`; R11 defines it for `p > 0` only, so it is a free value at 0 (log 16). -/
def modPeriod (a p : Nat) : Nat := if p = 0 then Config.modByZero a else a % p

/-- `(a - b) mod p`, in `[0, p)` for `p > 0`. -/
def subModPeriod (a b p : Nat) : Nat :=
  if p = 0 then Config.modByZero a else (((a : Int) - b) % p).toNat

/-! ### Host memory as bytes. -/

/-- The byte at an address; an unlisted address reads 0 (log 3). -/
def Memory.read : Memory → Nat → Byte
  | [], _ => 0
  | (a', b') :: m, a => if a = a' then b' else Memory.read m a

/-- Stores one byte and keeps the canonical form: addresses strictly rising, no byte 0. -/
def Memory.write : Memory → Nat → Byte → Memory
  | [], a, b => if b = 0 then [] else [(a, b)]
  | (a', b') :: m, a, b =>
    if a < a' then (if b = 0 then (a', b') :: m else (a, b) :: (a', b') :: m)
    else if a = a' then (if b = 0 then m else (a, b) :: m)
    else (a', b') :: Memory.write m a b

/-- Sets every byte of `[base, base + size)` to 0 (41_framebuffer.md R88). -/
def Memory.clear (m : Memory) (base size : Nat) : Memory :=
  m.filter fun c => !(base ≤ c.1 && c.1 < base + size)

/-- The canonical form: addresses strictly rising and below 2^32, no byte that an unlisted address would read. -/
abbrev Memory.wf (m : Memory) : Prop :=
  m.Pairwise (fun c d => c.1 < d.1) ∧ ∀ c ∈ m, c.1 < 2 ^ 32 ∧ c.2 ≠ 0

/-- `MemRead(a, n)` (20_memory.md R44): little-endian, addresses wrap modulo 2^32. -/
def Memory.load (m : Memory) (a : Addr) : Nat → Nat
  | 0 => 0
  | n + 1 => (m.read a.toNat).toNat + 256 * Memory.load m (a + 1) n

/-- `MemWrite(a, n, v)` (20_memory.md R44). -/
def Memory.store (m : Memory) (a : Addr) : Nat → Nat → Memory
  | 0, _ => m
  | n + 1, v => Memory.store (m.write a.toNat (BitVec.ofNat 8 v)) (a + 1) n (v / 256)

/-- Byte `b` with bit `j` set to `v` (20_memory.md R50). -/
def setBit (b : Byte) (j : Nat) (v : Bool) : Byte :=
  if v then b ||| BitVec.ofNat 8 (2 ^ j) else b &&& ~~~ BitVec.ofNat 8 (2 ^ j)

/-! ### The units of a transfer (43_scanline_vga.md R121, R122; 20_memory.md R56). -/

/-- The `n` units of `unit` bytes each from `a` on. -/
def fetchUnits (m : Memory) (a : Addr) (unit : Nat) : Nat → List Halfword
  | 0 => []
  | n + 1 => BitVec.ofNat 16 (m.load a unit) :: fetchUnits m (a + BitVec.ofNat 32 unit) unit n

/-- The unit of `unit` bytes at `a` shares a byte with the `n` bytes at `b`. -/
def unitTouched (a : Addr) (unit : Nat) (b : Addr) (n : Nat) : Bool :=
  (a - b).toNat < n || (b - a).toNat < unit

/-- The units from unit `k` on, at `a`, after a host write of `n` bytes at `b` during the transfer: a unit the write
touches is sent old or new, by the free choice `takeNew` (R56). -/
def raceUnits (takeNew : Nat → Bool) (m : Memory) (b : Addr) (n unit : Nat) :
    Nat → Addr → List Halfword → List Halfword
  | _, _, [] => []
  | k, a, u :: us =>
    (if unitTouched a unit b n && takeNew k then BitVec.ofNat 16 (m.load a unit) else u)
      :: raceUnits takeNew m b n unit (k + 1) (a + BitVec.ofNat 32 unit) us

/-- The transfer in flight reads host memory. -/
def State.readsMemory (s : State) : Bool := s.dma.busy && !s.dma.flight.fromSlot

/-- What a write of `n` bytes at `b`, already in memory, does to the transfer in flight (R56, log 12). Its choice has a
counter of its own, so that no later draw depends on host writes (70_reset_and_hazards.md R186). -/
def State.race (s : State) (b : Addr) (n : Nat) : State :=
  if s.readsMemory then
    { s with
      dma := { s.dma with flight := { s.dma.flight with
        units := raceUnits (Config.drawRace s.races) s.mem b n s.dma.unit 0 s.dma.flight.origin
          s.dma.flight.units } }
      races := s.races + 1 }
  else s

/-- `MemWrite(a, n, v)` by the host, seen by the DMA as R56 says. -/
def State.store (s : State) (a : Addr) (n v : Nat) : State :=
  State.race { s with mem := s.mem.store a n v } a n

/-- The byte at an address. -/
def State.byteAt (s : State) (a : Addr) : Byte := s.mem.read a.toNat

/-! ### The interrupt controller (60_exceptions.md R170 to R175). -/

/-- The lines of a source. -/
def Nvic.line (n : Nvic) : Source → IrqLine
  | .lt => n.lt
  | .hc => n.hc
  | .dma => n.dma

/-- The controller with the pending bit of one source set to `p`. -/
def Nvic.setPend (n : Nvic) (q : Source) (p : Bool) : Nvic :=
  match q with
  | .lt => { n with lt := { n.lt with pend := p } }
  | .hc => { n with hc := { n.hc with pend := p } }
  | .dma => { n with dma := { n.dma with pend := p } }

/-- `raise_event(q)` (R171): an event of a disabled source is lost; one whose pending bit is set raises OVERRUN. -/
def State.raiseEvent (s : State) (q : Source) : State :=
  if (s.nvic.line q).en then
    let s1 := if (s.nvic.line q).pend then s.raiseFault .overrun else s
    { s1 with nvic := s1.nvic.setPend q true, sleep := false }
  else s

/-- The source is pending and enabled (R172). -/
def Nvic.ready (n : Nvic) (q : Source) : Bool := (n.line q).en && (n.line q).pend

/-- The one of two candidates with the smaller level; the first where they are equal (log 24). -/
def Nvic.higher (n : Nvic) (p q : Option Source) : Option Source :=
  match p, q with
  | none, q => q
  | some a, none => some a
  | some a, some b => if (n.line b).prio < (n.line a).prio then some b else some a

/-- The source as a candidate for service. -/
def Nvic.candidate (n : Nvic) (q : Source) : Option Source := if n.ready q then some q else none

/-- The source that the event service takes next, if any: under the global enable, the pending enabled source with
the smallest level (R172). -/
def State.nextEvent (s : State) : Option Source :=
  if s.nvic.global then
    s.nvic.higher (s.nvic.higher (s.nvic.candidate .lt) (s.nvic.candidate .hc)) (s.nvic.candidate .dma)
  else none

/-- ENTRY to a handler (R172, R175): the source is no longer pending and the CPU is awake. No state is saved. -/
def State.enterHandler (s : State) (q : Source) : State :=
  { s with nvic := s.nvic.setPend q false, sleep := false }

/-- The operation that serves a source (R170). -/
def handlerOf : Source → Instr
  | .lt => .evLt
  | .hc => .evHc
  | .dma => .evDmac

/-- The event identifier of a source (R170, 30_encoding.md R67). -/
def eventWord : Source → Word
  | .lt => 0x81#32
  | .hc => 0x82#32
  | .dma => 0x83#32

/-! ### The control position and the raster predicates (10_state.md R39, 45_lifecycle.md R161). -/

/-- The vertical states (R39). -/
inductive VerticalState where
  | activePicture
  | frontPorch
  | vsyncPulse
  | backPorch
deriving DecidableEq, Repr

/-- The horizontal states (R39). -/
inductive HorizontalState where
  | awaitingHorizontalLock
  | synced
deriving DecidableEq, Repr

/-- The vertical state of a VGA mode at the line of `s`; none past the last line. -/
def State.vgaVertical (s : State) : Option VerticalState :=
  if s.line.toNat < s.fb.height then some .activePicture
  else if s.line.toNat < s.tim.vss then some .frontPorch
  else if s.line.toNat < s.tim.vse then some .vsyncPulse
  else if s.line.toNat < s.tim.vtotal then some .backPorch
  else none

/-- The vertical state of a composite mode at the line of `s`: R39 names ActivePicture alone. -/
def State.compositeVertical (s : State) (std : Standard) : Option VerticalState :=
  if Config.cActStart std ≤ s.line.toNat ∧ s.line.toNat < Config.cActStart std + Config.cHeight std
  then some .activePicture
  else none

/-- The vertical state (R39); none where the rule names none: while Off, and outside the picture in NTSC and PAL (log 34). -/
def State.verticalState (s : State) : Option VerticalState :=
  match s.mode with
  | .off => none
  | .mono => s.vgaVertical
  | .color => s.vgaVertical
  | .ntsc => s.compositeVertical .ntsc
  | .pal => s.compositeVertical .pal

/-- The horizontal state (R39). -/
def State.horizontalState (s : State) : HorizontalState := if s.synced then .synced else .awaitingHorizontalLock

/-- `active()`: the picture of R39, as R161 writes it. -/
def State.active (s : State) : Bool :=
  match s.mode with
  | .off => false
  | .mono => s.line.toNat < s.fb.height
  | .color => s.line.toNat < s.fb.height
  | .ntsc => Config.cActStart .ntsc ≤ s.line.toNat && s.line.toNat < Config.cActStart .ntsc + Config.cHeight .ntsc
  | .pal => Config.cActStart .pal ≤ s.line.toNat && s.line.toNat < Config.cActStart .pal + Config.cHeight .pal

/-- `vblank()`. -/
def State.vblank (s : State) : Bool :=
  match s.mode with
  | .off => true
  | .mono => !s.active
  | .color => !s.active
  | .ntsc => !s.active
  | .pal => !s.active

/-- What a WAIT waits for. -/
def State.waitHolds (s : State) : WaitFor → Bool
  | .vblank => s.vblank
  | .active => s.active

/-- A WAIT that the host is held in ends with STATUS 0 if its predicate holds now (R162, R163). -/
def State.resolveWait (s : State) : State :=
  match s.waiting with
  | none => s
  | some w => if s.waitHolds w then { s.setStatus statusOk with waiting := none } else s

/-- RETURN from a handler (60_exceptions.md R175): the end of the body, nothing is restored. A WAIT looks at its
predicate again after every event step (R162). -/
def State.leaveHandler (s : State) : State := s.resolveWait

end Sys2Proof.Machine
end

