-- ==== Sys2Proof/Machine/FrameBuffer.lean ====
section
/-! DEFINITION. The frame buffer (41_framebuffer.md) and the meanings of SET_PIXEL and GET_PIXEL. -/

namespace Sys2Proof.Machine

/-! ### Layout and allocation (R85 to R89). -/

/-- Mono: 16-bit words per line, the last two of them guard words (R86). -/
def monoWpl (w : Nat) : Nat := ceilDiv w 32 * 2 + 2

/-- The bit-band alias address of an SRAM byte (R86, 20_memory.md R50). -/
def aliasOf (a : Addr) : Addr := 0x22000000#32 + (a - 0x20000000#32) * 32#32

/-- The record of a Mono buffer (R86). -/
def monoBuffer (w h : Nat) (base : Addr) : FrameBuffer :=
  let wpl := monoWpl w
  { valid := true, base, width := w, height := h, wpl, stride := wpl * 16, size := wpl * 2 * h,
    aliasAddr := aliasOf base, xfer := wpl * 2 }

/-- The record of a Color, NTSC or PAL buffer (R87). -/
def byteBuffer (w h xfer : Nat) (base : Addr) : FrameBuffer :=
  { valid := true, base, width := w, height := h, wpl := 0, stride := w, size := w * h, aliasAddr := 0, xfer }

/-- The record of a buffer of a mode at an address (R86, R87). -/
def bufferOf (mode : Mode) (w h : Nat) (base : Addr) : FrameBuffer :=
  match mode with
  | .off => .reset
  | .mono => monoBuffer w h base
  | .color => byteBuffer w h w base
  | .ntsc => byteBuffer w h (Config.cSlotLen .ntsc) base
  | .pal => byteBuffer w h (Config.cSlotLen .pal) base

/-- The bytes of a buffer (R86, R87). -/
def bufferSize (mode : Mode) (w h : Nat) : Nat := (bufferOf mode w h 0).size

/-- `FB_BASE`, the draw of R88: 4-byte aligned, with `[base, base + size)` inside SRAM (log 11). -/
def drawBase (draw size : Nat) : Addr :=
  BitVec.ofNat 32 (Config.sramBase + 4 * (Config.drawFbBase draw % ((Config.sramSize - size) / 4 + 1)))

/-- The buffer fits the allocator (R88). -/
def fitsCapacity (mode : Mode) (w h : Nat) : Bool := bufferSize mode w h ≤ Config.fbCapacityBytes

/-- The state with a new buffer: every byte of it is 0 and S.fb is its record (R88). -/
def State.allocated (s : State) (mode : Mode) (w h : Nat) : State :=
  let base := drawBase s.draws (bufferSize mode w h)
  { s with
    fb := bufferOf mode w h base
    mem := s.mem.clear base.toNat (bufferSize mode w h)
    draws := s.draws + 1 }

/-- `allocate` (R88); none is OutOfMemory. -/
def State.allocate (s : State) (mode : Mode) (w h : Nat) : Option State :=
  if fitsCapacity mode w h then some (s.allocated mode w h) else none

/-- `release` (R89). -/
def State.release (s : State) : State := { s with fb := .reset }

/-! ### Pixels (R91 to R94, 20_memory.md R46, R48). -/

/-- `inb(x, y)` (R91). -/
def State.inBounds (s : State) (x y : Nat) : Bool := s.fb.valid && x < s.fb.width && y < s.fb.height

/-- Mono: the bit number of a pixel in the buffer (20_memory.md R46, R92). -/
def State.pixelBit (s : State) (x y : Nat) : Nat := y * s.fb.stride + (x ^^^ 15)

/-- The address of the byte that holds a pixel (20_memory.md R46, R48, R92). -/
def State.pixelAddr (s : State) (x y : Nat) : Addr :=
  match s.mode with
  | .mono => s.fb.base + BitVec.ofNat 32 (s.pixelBit x y / 8)
  | .off => s.fb.base + BitVec.ofNat 32 (y * s.fb.width + x)
  | .color => s.fb.base + BitVec.ofNat 32 (y * s.fb.width + x)
  | .ntsc => s.fb.base + BitVec.ofNat 32 (y * s.fb.width + x)
  | .pal => s.fb.base + BitVec.ofNat 32 (y * s.fb.width + x)

/-- The byte that a pixel's byte becomes when the pixel is set to ARG2 (R92). -/
def State.pixelByte (s : State) (x y : Nat) : Byte :=
  match s.mode with
  | .mono => setBit (s.byteAt (s.pixelAddr x y)) (s.pixelBit x y % 8) s.argBit
  | .off => s.argByte
  | .color => s.argByte
  | .ntsc => s.argByte
  | .pal => s.argByte

/-- The value of a pixel, zero-extended (R93). -/
def State.pixelValue (s : State) (x y : Nat) : Word :=
  match s.mode with
  | .mono => (BitVec.ofBool ((s.byteAt (s.pixelAddr x y)).getLsbD (s.pixelBit x y % 8))).setWidth 32
  | .off => (s.byteAt (s.pixelAddr x y)).setWidth 32
  | .color => (s.byteAt (s.pixelAddr x y)).setWidth 32
  | .ntsc => (s.byteAt (s.pixelAddr x y)).setWidth 32
  | .pal => (s.byteAt (s.pixelAddr x y)).setWidth 32

/-- SET_PIXEL (R92). -/
def execSetPixel (s : State) : Host.Outcome State Fault Refusal :=
  if s.inBounds s.argX s.argY then
    .next ((s.store (s.pixelAddr s.argX s.argY) 1 (s.pixelByte s.argX s.argY).toNat).setStatus statusOk)
  else .next (s.raiseFault .pixel)

/-- GET_PIXEL (R93). -/
def execGetPixel (s : State) : Host.Outcome State Fault Refusal :=
  if s.inBounds s.argX s.argY then
    .next (State.setStatus { s with result := s.pixelValue s.argX s.argY } statusOk)
  else .next (s.raiseFault .pixel)

/-! ### Guard words (R90, R95). -/

/-- The byte at an address is a guard-word byte of the Mono buffer (R90). -/
def State.guardByte (s : State) (a : Addr) : Bool :=
  let off := (a - s.fb.base).toNat
  s.mode == .mono && s.fb.valid && off < s.fb.size && (s.fb.wpl - 2) * 2 ≤ off % (s.fb.wpl * 2)

/-- One of the `n` bytes at an address is a guard-word byte. -/
def State.touchesGuard (s : State) (a : Addr) : Nat → Bool
  | 0 => false
  | n + 1 => s.guardByte a || State.touchesGuard s (a + 1) n

end Sys2Proof.Machine
end

