-- ==== Sys2Proof/Machine/Sequencer.lean ====
section
/-! DEFINITION. The peripheral sequencer: arm and disarm (42_sequencer.md). Both run inside one atomic command, so
only the state after the last step is visible (R98). -/

namespace Sys2Proof.Machine

/-- Arm, step 1: interrupt priorities (R99). -/
def armPriorities (n : Nvic) : Nvic :=
  { n with
    lt := { n.lt with prio := 0 }
    hc := { n.hc with prio := 1 }
    dma := { n.dma with prio := 2 } }

/-- The mode is Mono or Color. -/
def Mode.isVga : Mode → Bool
  | .off => false
  | .mono => true
  | .color => true
  | .ntsc => false
  | .pal => false

/-- The line period of a mode: S.tim's in every mode, since BEGIN_COMPOSITE puts `C_HTOTAL_CLK` there (R101,
44_composite.md R133). -/
def State.armPwm (s : State) (mode : Mode) : Pwm :=
  { en := true, cnt := 0, period := s.tim.htotalClk,
    width := if mode.isVga then s.tim.hsWidthClk else 0, pol := s.hpol }

/-- `d`, the initial count of the line timer: a draw in `[0, Ptot - 1)` (R102). -/
def drawCount (draw ptot : Nat) : Nat := Config.drawLtCount draw % (ptot - 1)

/-- The SPI of a mode (R103). -/
def State.armSpi (s : State) (mode : Mode) : Spi :=
  match mode with
  | .mono => { en := true, div := s.tim.xscale, bits := 16 }
  | .off => { s.spi with en := false }
  | .color => { s.spi with en := false }
  | .ntsc => { s.spi with en := false }
  | .pal => { s.spi with en := false }

/-- The parallel port of a mode (R103). -/
def State.armPort (s : State) (mode : Mode) : Port :=
  match mode with
  | .off => { s.port with en := false }
  | .mono => { s.port with en := false }
  | .color => { en := true, div := s.tim.xscale }
  | .ntsc => { en := true, div := Config.cSampleClk .ntsc }
  | .pal => { en := true, div := Config.cSampleClk .pal }

/-- The DMA channel of a mode (R103). -/
def State.armDma (s : State) (mode : Mode) : Dma :=
  match mode with
  | .off => .reset
  | .mono => { Dma.reset with src := s.fb.base, unit := 2, dst := .spi, irq := true }
  | .color => { Dma.reset with src := s.fb.base, unit := 1, dst := .port }
  | .ntsc => { Dma.reset with src := 0, unit := 1, dst := .port }
  | .pal => { Dma.reset with src := 0, unit := 1, dst := .port }

/-- The pins of a mode (R101, R103). -/
def State.armGpio (s : State) (mode : Mode) : Gpio :=
  match mode with
  | .off => .reset
  | .mono => { hsync := .pwm, vsync := .out, vlevel := s.vpolCfg, data := .gpioLow, port := .hiZ }
  | .color => { hsync := .pwm, vsync := .out, vlevel := s.vpolCfg, data := .hiZ, port := .port }
  | .ntsc => { hsync := .hiZ, vsync := .hiZ, vlevel := false, data := .hiZ, port := .port }
  | .pal => { hsync := .hiZ, vsync := .hiZ, vlevel := false, data := .hiZ, port := .port }

/-- A composite slot after arm: unchanged in VGA, zeros in NTSC and PAL (R103). -/
def armSlot (mode : Mode) (slot : List Byte) : List Byte :=
  match mode.standard with
  | none => slot
  | some std => List.replicate (Config.cSlotLen std) 0

/-- Arm, step 7: nothing pending, and the enables of the mode (R105). -/
def armEnables (mode : Mode) (n : Nvic) : Nvic :=
  { n with
    lt := { n.lt with en := true, pend := false }
    hc := { n.hc with en := mode.isVga, pend := false }
    dma := { n.dma with en := mode == .mono, pend := false } }

/-- `arm(mode, S.tim)` (R99 to R105). The global enable is not set here. -/
def State.arm (s : State) (mode : Mode) : State :=
  { s with
    nvic := armEnables mode (armPriorities s.nvic)
    dmaFirst := true
    pwm := s.armPwm mode
    lt := { en := true, cnt := drawCount s.draws s.tim.htotalClk, period := s.tim.htotalClk - 1 }
    draws := s.draws + 1
    spi := s.armSpi mode
    port := s.armPort mode
    dma := s.armDma mode
    gpio := s.armGpio mode
    cslot0 := armSlot mode s.cslot0
    cslot1 := armSlot mode s.cslot1
    line := 0
    sub := 0
    phase := 0
    synced := false
    ldpend := false
    vsync := false
    vpol := s.vpolCfg
    frame := 0
    armed := mode.isVga
    sleep := false }

/-- `disarm` (R106). The divisors of the SPI and the port return to 0 with their enables, so that R179 holds
(log 15). -/
def State.disarm (s : State) : State :=
  { s with
    nvic := .reset
    dma := .reset
    pwm := { s.pwm with en := false, cnt := 0, period := 0, width := 0 }
    lt := { en := false, cnt := 0, period := 0 }
    spi := { s.spi with en := false, div := 0 }
    port := { en := false, div := 0 }
    gpio := .reset
    dmaFirst := false
    sleep := false }

end Sys2Proof.Machine
end

