-- ==== Sys2Proof/Machine/Scanline.lean ====
section
/-! DEFINITION. The VGA raster path (43_scanline_vga.md): the lock step, the transfer start, the VGA line body, the DMA
completion, and the meanings of EV_HC and EV_DMAC. -/

namespace Sys2Proof.Machine

/-! ### The lock (R112, R114). -/

/-- The sample lies in the lock window `{E, E + 1}`, modulo the period (R114). -/
def inLockWindow (sample e ptot : Nat) : Bool :=
  subModPeriod sample e ptot = 0 || subModPeriod sample e ptot = 1

/-- The sample, the live count of the PWM, is in the window (R112, R114). -/
def State.locks (s : State) : Bool := inLockWindow s.pwm.cnt s.tim.lockOffClk s.pwm.period

/-- `lock_step()` (R114): at the lock the line timer takes the PWM's period. No raster work, locked or not. -/
def State.lockStep (s : State) : State :=
  { s with
    lt := { s.lt with period := if s.locks then s.pwm.period else s.lt.period }
    synced := s.locks || s.synced }

/-! ### Transfers (R117, R121, R123). -/

/-- `DMA_LAT`, a draw in `[0, DMA_LAT_MAX]` for each transfer (R121). -/
def drawLat (draw : Nat) : Nat := Config.drawDmaLat draw % (Config.dmaLatMax + 1)

/-- RELOAD if the transfer before is still in flight (R117, 44_composite.md R138). -/
def State.checkReload (s : State) : State := if s.dma.busy then s.raiseFault .reload else s

/-- The data pin when a transfer starts: Mono gives it to the SPI (R117). -/
def State.pinAtStart (s : State) : DataRoute := if s.mode = .mono then .spi else s.gpio.data

/-- The transfer that a VGA line starts: from `P.dma.src`, `S.fb.xfer` bytes in units of `P.dma.unit` (R117, R121).
Its units are what memory holds now; later host writes race with it (20_memory.md R56). -/
def State.vgaFlight (s : State) : Flight :=
  { age := 0, lat := drawLat s.draws, origin := s.dma.src, fromSlot := false,
    frame := s.frame, line := s.line, sub := s.sub,
    units := fetchUnits s.mem s.dma.src s.dma.unit (s.fb.xfer / s.dma.unit) }

/-- `start_transfer()`, the VGA form (R117). -/
def State.startTransfer (s : State) : State :=
  let s1 := s.checkReload
  { s1 with
    dma := { s1.dma with len := s1.fb.xfer, busy := true, done := false, flight := s1.vgaFlight }
    gpio := { s1.gpio with data := s1.pinAtStart }
    draws := s1.draws + 1 }

/-- The master clocks of one unit: 16 bits of the SPI, or one byte of the port (R121). -/
def State.unitTime (s : State) : Nat :=
  match s.dma.dst with
  | .spi => s.spi.bits * s.spi.div
  | .port => s.port.div
  | .none => 0

/-- The master clocks from the start of the transfer in flight to its completion (R121). -/
def State.transferTime (s : State) : Nat := s.dma.flight.lat + s.dma.len / s.dma.unit * s.unitTime

/-- The record of the transfer in flight (R131). -/
def Flight.sent (f : Flight) : SentLine := ⟨f.frame, f.line, f.sub, f.units⟩

/-- `dma_complete()` (R123), without the event it raises. -/
def State.dmaComplete (s : State) : State :=
  { s with
    dma := { s.dma with src := s.dma.src + BitVec.ofNat 32 s.dma.len, busy := false, done := true }
    lastSent := some s.dma.flight.sent }

/-! ### The VGA line body (R116 to R119). -/

/-- Step (a): the transfer of the line, if the display is armed (R116). -/
def State.vgaTransfer (s : State) : State := if s.armed then s.startTransfer else s

/-- Step (b): vertical sync of the line (R116, R118). -/
def State.vgaVsync (s : State) : State :=
  let v := decide (s.tim.vss ≤ s.line.toNat) && decide (s.line.toNat < s.tim.vse)
  { s with vsync := v, gpio := { s.gpio with vlevel := v ^^ s.vpol } }

/-- Step (c): the vertical position, and whether the HC handler must rewind (R116, R119). The last row of R129's trace has
the line advance at a repeat that is not the last; the model follows R116 (log 32). -/
def State.vgaAdvance (s : State) (started : Bool) : State :=
  let sub1 := s.sub + 1
  if sub1.toNat = s.tim.yscale then { s with sub := 0, line := s.line + 1, ldpend := false }
  else { s with sub := sub1, ldpend := started && sub1 != 0 }

/-- Step (d): the end of the active picture (R116). -/
def State.vgaEndActive (s : State) : State :=
  if s.line.toNat = s.fb.height then { s with armed := false } else s

/-- Step (e): the end of the frame (R116). -/
def State.vgaEndFrame (s : State) : State :=
  if s.line.toNat = s.tim.vtotal then
    { s with line := 0, dma := { s.dma with src := s.fb.base }, armed := true, frame := s.frame + 1 }
  else s

/-- `vga_line()` (R116). -/
def State.vgaLine (s : State) : State :=
  ((s.vgaTransfer.vgaVsync.vgaAdvance s.armed).vgaEndActive).vgaEndFrame

/-! ### The other two handlers. -/

/-- The rewind of a pending line double (R124): back by exactly one line, even while the channel is busy. After a
rewind while busy the completion adds the length again (R123), so that the next transfer starts at the same line: the
pseudocode, where R124's corner case says "one line too far" (log 31). -/
def State.rewind (s : State) : State :=
  if s.ldpend then
    let s1 := if s.dma.busy then s.raiseFault .rewind else s
    { s1 with dma := { s1.dma with src := s1.dma.src - BitVec.ofNat 32 s1.fb.xfer }, ldpend := false }
  else s

/-- EV_HC (R124, R126). -/
def execEvHc (s : State) : Host.Outcome State Fault Refusal :=
  .next { s.rewind with sleep := true }

/-- EV_DMAC (R125). -/
def execEvDmac (s : State) : Host.Outcome State Fault Refusal :=
  .next { s with dma := { s.dma with done := false }, gpio := { s.gpio with data := .gpioLow } }

end Sys2Proof.Machine
end

