-- ==== Sys2Proof/Machine/Clock.lean ====
section
/-! DEFINITION. One tick of the master clock, its steps 1 to 4 (43_scanline_vga.md R108 to R111, R121, R123). Step 5,
the service of handlers, is the machine's next steps. -/

namespace Sys2Proof.Machine

/-- The PWM advances (R109). -/
def State.tickPwm (s : State) : State :=
  if s.pwm.en then { s with pwm := { s.pwm with cnt := modPeriod (s.pwm.cnt + 1) s.pwm.period } } else s

/-- The PWM raises HC in this tick (R110). -/
def State.raisesHc (s : State) : Bool := s.pwm.en && modPeriod (s.pwm.cnt + 1) s.pwm.period == 0

/-- The line timer advances (R111). -/
def State.tickLt (s : State) : State :=
  if s.lt.en then { s with lt := { s.lt with cnt := modPeriod (s.lt.cnt + 1) s.lt.period } } else s

/-- The line timer raises LT in this tick (R111). -/
def State.raisesLt (s : State) : Bool := s.lt.en && modPeriod (s.lt.cnt + 1) s.lt.period == 0

/-- The transfer in flight is one tick older. -/
def State.ageFlight (s : State) : State :=
  { s with dma := { s.dma with flight := { s.dma.flight with age := s.dma.flight.age + 1 } } }

/-- This tick is the completion tick of the transfer in flight (R121). -/
def State.completes (s : State) : Bool := s.dma.busy && decide (s.transferTime ≤ s.dma.flight.age + 1)

/-- The DMA channel advances; in the completion tick the completion step runs (R108 step 3, R123). -/
def State.tickDma (s : State) : State :=
  if s.completes then s.ageFlight.dmaComplete
  else if s.dma.busy then s.ageFlight
  else s

/-- The DMA raises its event in this tick (R123). -/
def State.raisesDma (s : State) : Bool := s.completes && s.dma.irq

/-- An event is recorded if it was raised (R108 step 4, 60_exceptions.md R171). -/
def State.raiseIf (s : State) (raised : Bool) (q : Source) : State := if raised then s.raiseEvent q else s

/-- Steps 1 to 4 of one tick (R108). -/
def State.tick (s : State) : State :=
  (((s.tickPwm.tickLt.tickDma).raiseIf s.raisesHc .hc).raiseIf s.raisesLt .lt).raiseIf s.raisesDma .dma

end Sys2Proof.Machine
end

