-- ==== Sys2Proof/WellFormed.lean ====
section
/-! DEFINITION. Which operations have an encoding, and which of them the host may issue. -/

namespace Sys2Proof

/-- An operation has an encoding: its SEL fits in the 8 bits of 30_encoding.md R60. Every SEL of 8 bits is a legal
BEGIN or BEGIN_COMPOSITE (R64, R65). -/
def Instr.wellFormed : Instr → Bool
  | .begin sel => sel < 256
  | .beginComposite sel => sel < 256
  | .endMode => true
  | .setMonitorRange => true
  | .setPixel => true
  | .getPixel => true
  | .waitVblank => true
  | .waitActive => true
  | .evLt => true
  | .evHc => true
  | .evDmac => true

/-- The operation is of format CMD: the host may write it to the CMD register. The event identifiers are of format
EVT and are not host-issuable (30_encoding.md R59, R67). -/
def Instr.hostIssuable : Instr → Bool
  | .begin _ => true
  | .beginComposite _ => true
  | .endMode => true
  | .setMonitorRange => true
  | .setPixel => true
  | .getPixel => true
  | .waitVblank => true
  | .waitActive => true
  | .evLt => false
  | .evHc => false
  | .evDmac => false

end Sys2Proof
end

