-- ==== Sys2Proof/Decode.lean ====
section
/-! DEFINITION. The decoder (30_encoding.md R59 to R67), total on any bytes, and the encoder. -/

namespace Sys2Proof

/-- Why a word is no operation, or none the host may issue. -/
inductive DecodeError where
  /-- The bytes are not one 32-bit word (R59: there is no other length). -/
  | wrongLength
  /-- RSV, bits [31:16], is not 0 (R60, R64). -/
  | reservedBits
  /-- OP is none of the opcode map (R66). -/
  | reservedOpcode
  /-- SEL is not 0 where R60 asks for 0 (R64). -/
  | selectorNotZero
  /-- An EVT identifier was written to CMD (R64, R67). -/
  | notHostIssuable
deriving DecidableEq, Repr

/-- RSV, bits [31:16] (R60). -/
def rsvField (c : Word) : BitVec 16 := c.extractLsb' 16 16

/-- SEL, bits [15:8] (R60). -/
def selField (c : Word) : BitVec 8 := c.extractLsb' 8 8

/-- OP, bits [7:0] (R60). -/
def opField (c : Word) : BitVec 8 := c.extractLsb' 0 8

/-- An operation whose SEL must be 0 (R60, R64). -/
def requireNoSel (sel : BitVec 8) (i : Instr) : Except DecodeError Instr :=
  if sel = 0 then .ok i else .error .selectorNotZero

/-- The operation that OP and SEL name, with RSV already known to be 0 (R62, R64, R66). -/
def decodeOp (op sel : BitVec 8) : Except DecodeError Instr :=
  match op with
  | 0x01#8 => .ok (.begin sel.toNat)
  | 0x02#8 => .ok (.beginComposite sel.toNat)
  | 0x03#8 => requireNoSel sel .endMode
  | 0x04#8 => requireNoSel sel .setMonitorRange
  | 0x05#8 => requireNoSel sel .setPixel
  | 0x06#8 => requireNoSel sel .getPixel
  | 0x07#8 => requireNoSel sel .waitVblank
  | 0x08#8 => requireNoSel sel .waitActive
  | 0x81#8 => requireNoSel sel .evLt
  | 0x82#8 => requireNoSel sel .evHc
  | 0x83#8 => requireNoSel sel .evDmac
  | _ => .error .reservedOpcode

/-- The one decoder of commands and events (R59). -/
def decode (c : Word) : Except DecodeError Instr :=
  if rsvField c = 0 then decodeOp (opField c) (selField c) else .error .reservedBits

/-- What a write of `c` to the CMD register names: R64's decode, where an EVT identifier is ILLEGAL. -/
def decodeCmd (c : Word) : Except DecodeError Instr :=
  match decode c with
  | .ok i => if i.hostIssuable then .ok i else .error .notHostIssuable
  | .error e => .error e

/-- The word that four bytes hold, the first at the lowest address (20_memory.md R44, R45). -/
def wordOfBytes (b0 b1 b2 b3 : Byte) : Word := b3 ++ b2 ++ b1 ++ b0

/-- The decoder on the bytes of an operation. -/
def decodeBytes : List Byte → Except DecodeError Instr
  | [b0, b1, b2, b3] => decode (wordOfBytes b0 b1 b2 b3)
  | _ => .error .wrongLength

/-- Byte `k` of a number, as little-endian memory stores it. -/
def byteOfNat (w k : Nat) : Byte := BitVec.ofNat 8 (w / 256 ^ k)

/-- The four bytes of the word whose low `nbits` bits are those of `w`, every bit above them 0. -/
def tableBytes (nbits w : Nat) : List Byte :=
  let v := w % 2 ^ nbits
  [byteOfNat v 0, byteOfNat v 1, byteOfNat v 2, byteOfNat v 3]

/-- The operation the decoder reads from a word of the opcode table, given by its bits. -/
def decodeTableWord (nbits w : Nat) : Option Instr :=
  match decodeBytes (tableBytes nbits w) with
  | .ok i => some i
  | .error _ => none

/-- The OP of an operation (R62). -/
def opcodeOf : Instr → BitVec 8
  | .begin _ => 0x01#8
  | .beginComposite _ => 0x02#8
  | .endMode => 0x03#8
  | .setMonitorRange => 0x04#8
  | .setPixel => 0x05#8
  | .getPixel => 0x06#8
  | .waitVblank => 0x07#8
  | .waitActive => 0x08#8
  | .evLt => 0x81#8
  | .evHc => 0x82#8
  | .evDmac => 0x83#8

/-- The SEL of an operation (R62). -/
def selOf : Instr → BitVec 8
  | .begin sel => BitVec.ofNat 8 sel
  | .beginComposite sel => BitVec.ofNat 8 sel
  | .endMode => 0#8
  | .setMonitorRange => 0#8
  | .setPixel => 0#8
  | .getPixel => 0#8
  | .waitVblank => 0#8
  | .waitActive => 0#8
  | .evLt => 0#8
  | .evHc => 0#8
  | .evDmac => 0#8

/-- The word of an operation: RSV, SEL, OP (R60). -/
def encode (i : Instr) : Word := 0#16 ++ selOf i ++ opcodeOf i

end Sys2Proof
end

