-- ==== Sys2Proof/Machine/Composite.lean ====
section
/-! DEFINITION. The composite chroma-subcarrier encoder (44_composite.md) and the meaning of EV_LT. The encoder is
written over the parameters of a standard, `CompositeParams`. -/

namespace Sys2Proof.Machine

/-- The slot with the bytes `vals` in place of its bytes from index `i` on; bytes past the end of the slot are
dropped. -/
def overlay (slot : List Byte) (i : Nat) (vals : List Byte) : List Byte :=
  match slot, i, vals with
  | [], _, _ => []
  | slot, _, [] => slot
  | _ :: slot, 0, v :: vals => v :: overlay slot 0 vals
  | b :: slot, i + 1, vals => b :: overlay slot i vals

/-- The preamble of line `n` at a phase (R136, R137). -/
def preamble (p : CompositeParams) (phase n : Nat) : List Byte :=
  (List.range p.preLen).map fun i => p.template (if p.nvar = 2 then n % 2 else 0) (phase + i)

/-- The next row of the walk: add the stride, subtract the cycle when the row reaches it (R139). -/
def nextRow (p : CompositeParams) (row : Nat) : Nat :=
  if row + p.pstride ≥ p.cycle then row + p.pstride - p.cycle else row + p.pstride

/-- The first row of a line (R139). -/
def firstRow (p : CompositeParams) (phase : Nat) : Nat := (phase + p.pfixoff) % p.cycle

/-- The rows of `n` successive pixels (R139). -/
def rowWalk (p : CompositeParams) (row : Nat) : Nat → List Nat
  | 0 => []
  | n + 1 => row :: rowWalk p (nextRow p row) n

/-- The samples of `n` pixels from address `a` on, the first at row `row` (R139). -/
def encodePixels (p : CompositeParams) (m : Memory) (a : Addr) (row : Nat) : Nat → List Byte
  | 0 => []
  | n + 1 => p.pt (m.read a.toNat) row :: encodePixels p m (a + 1) (nextRow p row) n

/-- `encode_active(k, y)`: the body of an active line (R139). -/
def encodeActive (p : CompositeParams) (m : Memory) (base : Addr) (phase y : Nat) : List Byte :=
  encodePixels p m (base + BitVec.ofNat 32 (y * 320)) (firstRow p phase) 320

/-- `fill_band(k, cls)`: the body of a line outside the active picture; nothing outside the band (R140). -/
def bandBody (p : CompositeParams) (n : Nat) : List Byte :=
  match p.lineClass n with
  | .blank => (List.range 320).map p.blankpat
  | .white => (List.range 320).map p.whitepat
  | .outside => []

/-- The line is within the active picture (R136, 10_state.md R39). -/
def activeLine (p : CompositeParams) (n : Nat) : Bool := p.actStart ≤ n && n < p.actStart + p.height

/-- The body of line `n` (R136 (b)). -/
def lineBody (p : CompositeParams) (m : Memory) (base : Addr) (phase n : Nat) : List Byte :=
  if activeLine p n then encodeActive p m base phase (n - p.actStart) else bandBody p n

/-- The slot that line `n` fills, after the fill: preamble, body, and the tail that no rule writes (R135, R136). -/
def fillSlot (p : CompositeParams) (m : Memory) (base : Addr) (phase n : Nat) (slot : List Byte) : List Byte :=
  overlay (overlay slot 0 (preamble p phase n)) p.preLen (lineBody p m base phase n)

/-- The chroma phase after one line (R142). -/
def nextPhase (p : CompositeParams) (phase : Nat) : Nat := (phase + p.poff) % p.cycle

/-- The slot with parity `j`. -/
def State.slot (s : State) (j : Nat) : List Byte := if j = 0 then s.cslot0 else s.cslot1

/-- The transfer of slot `j`: its samples are those the slot holds now (R138). Its record carries the raster position
of the LT execution that starts it, line `n`, though the slot holds the samples of line `n - 1` (R135; log 21). -/
def State.slotFlight (s : State) (j len : Nat) : Flight :=
  { age := 0, lat := drawLat s.draws, origin := BitVec.ofNat 32 j, fromSlot := true,
    frame := s.frame, line := s.line, sub := s.sub,
    units := ((s.slot j).take len).map fun b => b.setWidth 16 }

/-- `start_slot_transfer(j)` (R138). -/
def State.startSlotTransfer (s : State) (j len : Nat) : State :=
  let s1 := s.checkReload
  { s1 with
    dma := { s1.dma with
      src := BitVec.ofNat 32 j, len := len, busy := true, done := false, flight := s1.slotFlight j len }
    draws := s1.draws + 1 }

/-- Line `n` fills slot `n mod 2` (R135, R136). -/
def State.fillLine (s : State) (p : CompositeParams) (n : Nat) : State :=
  if n % 2 = 0 then { s with cslot0 := fillSlot p s.mem s.fb.base s.phase.toNat n s.cslot0 }
  else { s with cslot1 := fillSlot p s.mem s.fb.base s.phase.toNat n s.cslot1 }

/-- The chroma phase and the line counter (R136 (c), (d), R142, R143). -/
def State.compositeAdvance (s : State) (p : CompositeParams) (n : Nat) : State :=
  let s1 := { s with phase := BitVec.ofNat 8 (nextPhase p s.phase.toNat) }
  if n + 1 = p.total then { s1 with line := 0, frame := s1.frame + 1 }
  else { s1 with line := BitVec.ofNat 16 (n + 1) }

/-- `composite_line()` (R136). `len` is `C_SLOT_LEN`. -/
def State.compositeLine (s : State) (p : CompositeParams) (len : Nat) : State :=
  let n := s.line.toNat
  ((s.startSlotTransfer ((n + 1) % 2) len).fillLine p n).compositeAdvance p n

/-- The raster work of one LT event after the lock (43_scanline_vga.md R113). R113 names the running modes only; in
mode Off, where the handler is never enabled, there is none (log 17). -/
def State.rasterLine (s : State) : State :=
  match s.mode with
  | .off => s
  | .mono => s.vgaLine
  | .color => s.vgaLine
  | .ntsc => s.compositeLine (Config.composite .ntsc) (Config.cSlotLen .ntsc)
  | .pal => s.compositeLine (Config.composite .pal) (Config.cSlotLen .pal)

/-- EV_LT (43_scanline_vga.md R113). -/
def execEvLt (s : State) : Host.Outcome State Fault Refusal :=
  .next (if s.synced then s.rasterLine else s.lockStep)

end Sys2Proof.Machine
end

