-- ==== Sys2Proof/Machine/Modeline.lean ====
section
/-! DEFINITION. The modeline solver and the pixel-clock divider (40_modeline.md). It reads and writes no state and
works in natural numbers (R70). `margin` is `HMARGIN_CLK`. -/

namespace Sys2Proof.Machine

/-- The horizontal geometry of a width (R72). -/
structure HGeometry where
  htotal : Nat
  hss : Nat
  hse : Nat
deriving DecidableEq, Repr

/-- R72. -/
def hGeometry (w : Nat) : HGeometry :=
  let htotal := 2 * ((5 * w + 4) / 8)
  let hb := htotal - w
  let hss := w + hb / 10
  { htotal, hss, hse := hss + max (6 * hb / 10) 1 }

/-- The vertical geometry of a height and a slack (R73). -/
structure VGeometry where
  vtotal : Nat
  vss : Nat
  vse : Nat
deriving DecidableEq, Repr

/-- R73. -/
def vGeometry (h s : Nat) : VGeometry :=
  let vtotal := 25 * h / 24 + s
  let vb := vtotal - h
  let vss := h + max (2 * vb / 9) 1
  { vtotal, vss, vse := vss + max (vb / 22) 1 }

/-- A candidate is geometrically valid (R74). -/
def geometricallyValid (g : HGeometry) (v : VGeometry) : Bool :=
  g.hse < g.htotal && v.vse < v.vtotal && v.vtotal < 2 ^ 16

/-- The line frequency `F_MCK / L` is strictly inside the window (R75). -/
def lineOk (win : Window) (L : Nat) : Bool :=
  win.hmin.toNat * L < Config.fMck && Config.fMck < win.hmax.toNat * L

/-- The frame frequency `F_MCK / X` is strictly inside the window (R75). -/
def frameOk (win : Window) (X : Nat) : Bool :=
  win.vmin.toNat * X < Config.fMck && Config.fMck < win.vmax.toNat * X

/-- A combination of the search space: horizontal scale, slack, vertical scale. -/
structure Candidate where
  xscale : Nat
  slack : Nat
  yscale : Nat
deriving DecidableEq, Repr

/-- The combination passes every test of the search (R74, R75, R76). -/
def accepts (w h : Nat) (win : Window) (c : Candidate) : Bool :=
  let g := hGeometry w
  let v := vGeometry h c.slack
  let L := c.xscale * g.htotal
  geometricallyValid g v && lineOk win L && frameOk win (L * v.vtotal * c.yscale)

/-- `for i = a to b`, as a list. -/
def upTo (a b : Nat) : List Nat := (List.range (b + 1 - a)).map (a + ·)

/-- `for i = b downto a`, as a list. -/
def downTo (b a : Nat) : List Nat := (upTo a b).reverse

/-- The vertical scales, smaller first: the first that passes (R76). -/
def searchYscale (w h : Nat) (win : Window) (xs s : Nat) : Option Candidate :=
  (upTo Config.yscaleMin Config.yscaleMax).findSome? fun ys =>
    if accepts w h win ⟨xs, s, ys⟩ then some ⟨xs, s, ys⟩ else none

/-- The slacks, smaller first (R76). A slack whose geometry or whose line frequency is out is skipped whole. -/
def searchSlack (w h : Nat) (win : Window) (xs : Nat) : Option Candidate :=
  (upTo 0 Config.slackMax).findSome? fun s =>
    if geometricallyValid (hGeometry w) (vGeometry h s) && lineOk win (xs * (hGeometry w).htotal)
    then searchYscale w h win xs s else none

/-- The horizontal scales, larger first: the first combination that passes (R76). -/
def search (w h : Nat) (win : Window) : Option Candidate :=
  (downTo Config.xscaleMax Config.xscaleMin).findSome? fun xs => searchSlack w h win xs

/-- `burst_px`: the pixels one line's DMA burst sends (R78). -/
def burstPx (color : Bool) (w : Nat) : Nat := if color then w else (ceilDiv w 32 * 2 + 2) * 16

/-- `hs_start_clk` (R78). -/
def hsStartClk (margin : Nat) (color : Bool) (w xscale : Nat) : Nat :=
  evenDown (max ((hGeometry w).hss * xscale) (burstPx color w * xscale + margin))

/-- `htotal_clk` (R78). -/
def htotalClk (w xscale : Nat) : Nat := evenDown ((hGeometry w).htotal * xscale)

/-- The timing record of an accepted combination (R78, R79); `cycle` is 0 (R80). -/
def timingOf (margin : Nat) (color : Bool) (w h : Nat) (c : Candidate) : Timing :=
  let g := hGeometry w
  let v := vGeometry h c.slack
  let total := htotalClk w c.xscale
  let start := hsStartClk margin color w c.xscale
  { xscale := c.xscale
    yscale := c.yscale
    htotal := g.htotal
    hss := g.hss
    hse := g.hse
    vtotal := v.vtotal
    vss := v.vss
    vse := v.vse
    htotalClk := total
    hsStartClk := start
    hsWidthClk := evenDown (min ((g.hse - g.hss) * c.xscale) (total - start))
    lockOffClk := total - start
    flineHz := Config.fMck / (c.xscale * g.htotal)
    fframeMhz := 1000 * Config.fMck / (c.xscale * g.htotal * v.vtotal * c.yscale)
    cycle := 0 }

/-- `finish` (R78): a failed validation is NoValidTiming and ends the search. -/
def finish (margin : Nat) (color : Bool) (w h : Nat) (c : Candidate) : Option Timing :=
  if c.xscale = 1 then none
  else if color && decide (c.xscale < Config.colorXscaleMin) then none
  else if hsStartClk margin color w c.xscale + 2 > htotalClk w c.xscale then none
  else some (timingOf margin color w h c)

/-- `solve` (R70, R76, R77); `none` is NoValidTiming. -/
def solve (margin w h : Nat) (color : Bool) (win : Window) : Option Timing :=
  (search w h win).bind (finish margin color w h)

end Sys2Proof.Machine
end

