-- ==== Sys2Proof/Machine/Lifecycle.lean ====
section
/-! DEFINITION. The display-mode FSM (45_lifecycle.md) and the meanings of BEGIN, BEGIN_COMPOSITE, END,
SET_MONITOR_RANGE, WAIT_VBLANK and WAIT_ACTIVE. -/

namespace Sys2Proof.Machine

/-- `stop()` on a running machine (R153, after its first line). -/
def State.stopRunning (s : State) : State :=
  { (s.disarm).release with
    tim := .reset
    line := 0
    sub := 0
    phase := 0
    synced := false
    frame := 0
    armed := false
    ldpend := false
    vsync := false
    vpol := false
    mode := .off
    life := .off }

/-- `stop()` (R153): a no-op while Off. -/
def State.stop (s : State) : State := if s.life = .off then s else s.stopRunning

/-- The last steps of a successful BEGIN or BEGIN_COMPOSITE: arm, Running, interrupts on, status 0 (R154 step 7,
R158). -/
def State.startMode (s : State) (mode : Mode) : State :=
  let s1 := s.arm mode
  State.setStatus { s1 with mode := mode, life := .running, nvic := { s1.nvic with global := true } } statusOk

/-- Allocation and start with a timing record (R154 steps 6 and 7, R158). Off with status -2 if the buffer cannot be
allocated. -/
def State.allocateAndStart (s : State) (mode : Mode) (w h : Nat) (t : Timing) : State :=
  match State.allocate { s with tim := t } mode w h with
  | none => State.setStatus { s with tim := .reset } statusNoMemory
  | some s1 => s1.startMode mode

/-- BEGIN after its stop, with the mode known: steps 3 to 7 (R154). `margin` is `HMARGIN_CLK`. The height limit of Color
is tested before the solver is asked, as R154 has it; R156 and R157 give 640×480 Color the solver's -1 (log 33). -/
def State.beginVga (s : State) (margin : Nat) (mode : Mode) (w h : Nat) : State :=
  if w < Config.widthMin ∨ w > Config.widthMax ∨ h < 1 then s.setStatus statusBadMode
  else if mode = .color ∧ h > Config.colorHeightMax then s.setStatus statusTooTall
  else match solve margin w h (mode == .color) s.win with
    | none => s.setStatus statusNoTiming
    | some t => s.allocateAndStart mode w h t

/-- BEGIN on a machine whose `HMARGIN_CLK` is `margin` (R154). -/
def State.beginWith (s : State) (margin sel : Nat) : State :=
  match beginMode sel with
  | none => (s.stop).setStatus statusBadMode
  | some mode => (s.stop).beginVga margin mode s.argWidth s.argHeight

/-- BEGIN (R154). -/
def execBegin (sel : Nat) (s : State) : Host.Outcome State Fault Refusal :=
  .next (s.beginWith Config.hmarginClk sel)

/-- The timing record of a composite standard (44_composite.md R133). -/
def compositeTiming (std : Standard) : Timing :=
  { Timing.reset with
    cycle := Config.cCycle std
    htotalClk := Config.cHtotalClk std
    vtotal := Config.cTotal std
    lockOffClk := Config.cLockOffClk std
    yscale := 1
    flineHz := Config.fMck / Config.cHtotalClk std
    fframeMhz := 1000 * Config.fMck / (Config.cHtotalClk std * Config.cTotal std) }

/-- BEGIN_COMPOSITE (R158). -/
def execBeginComposite (sel : Nat) (s : State) : Host.Outcome State Fault Refusal :=
  .next (match compositeStandard sel with
    | none => (s.stop).setStatus statusBadMode
    | some std =>
      (s.stop).allocateAndStart (modeOfStandard std) Config.cWidth (Config.cHeight std) (compositeTiming std))

/-- END (R159): while Off nothing changes, STATUS included. -/
def execEnd (s : State) : Host.Outcome State Fault Refusal :=
  .next (if s.life = .off then s else (s.stop).setStatus statusOk)

/-- SET_MONITOR_RANGE (R160): no validation. -/
def execSetMonitorRange (s : State) : Host.Outcome State Fault Refusal :=
  .next (State.setStatus { s with win := s.argWindow } statusOk)

/-- A WAIT: it ends at once if its predicate holds, else it holds the host (R162, R163). -/
def State.wait (s : State) (w : WaitFor) : State :=
  if s.waitHolds w then s.setStatus statusOk else { s with waiting := some w }

/-- WAIT_VBLANK (R162). -/
def execWaitVblank (s : State) : Host.Outcome State Fault Refusal := .next (s.wait .vblank)

/-- WAIT_ACTIVE (R163). -/
def execWaitActive (s : State) : Host.Outcome State Fault Refusal := .next (s.wait .active)

end Sys2Proof.Machine
end

