-- ==== Sys2Proof/Machine/Dispatch.lean ====
section
/-! DEFINITION. The dispatch of an operation to its meaning, one arm per constructor of Instr. -/

namespace Sys2Proof.Machine

def exec (i : Instr) (s : State) : Host.Outcome State Fault Refusal :=
  match i with
  | .begin sel => Sys2Proof.Machine.execBegin sel s
  | .beginComposite sel => Sys2Proof.Machine.execBeginComposite sel s
  | .endMode => Sys2Proof.Machine.execEnd s
  | .setMonitorRange => Sys2Proof.Machine.execSetMonitorRange s
  | .setPixel => Sys2Proof.Machine.execSetPixel s
  | .getPixel => Sys2Proof.Machine.execGetPixel s
  | .waitVblank => Sys2Proof.Machine.execWaitVblank s
  | .waitActive => Sys2Proof.Machine.execWaitActive s
  | .evLt => Sys2Proof.Machine.execEvLt s
  | .evHc => Sys2Proof.Machine.execEvHc s
  | .evDmac => Sys2Proof.Machine.execEvDmac s

end Sys2Proof.Machine
end

