-- ==== Sys2Proof/Machine/Registers.lean ====
section
/-! DEFINITION. The register window (10_state.md R16 to R20) and the host's accesses to memory and to the bit-band
alias (20_memory.md R49 to R51, 41_framebuffer.md R95). A write to CMD is in HostPort.lean. -/

namespace Sys2Proof.Machine

/-- A natural number as a register shows it. -/
def reg (n : Nat) : Word := BitVec.ofNat 32 n

/-- DMA_SRC: `P.dma.src` (R16); in NTSC and PAL the tag of the slot last sent, so that it reads 0 or 1
(44_composite.md R138, log 14). -/
def State.dmaSrcRegister (s : State) : Word :=
  match s.mode.standard with
  | none => s.dma.src
  | some _ => s.dma.flight.origin

/-- The content of the register at an offset (R16). CMD and every reserved offset read 0. -/
def State.register (s : State) (off : Nat) : Word :=
  match off with
  | 0x04 => s.args.a0
  | 0x08 => s.args.a1
  | 0x0C => s.args.a2
  | 0x10 => s.args.a3
  | 0x14 => s.status
  | 0x18 => s.result
  | 0x1C => s.stateRegister
  | 0x20 => s.lineRegister
  | 0x24 => s.frame
  | 0x28 => s.phaseRegister
  | 0x2C => s.cfgRegister
  | 0x30 => s.win.hmin
  | 0x34 => s.win.hmax
  | 0x38 => s.win.vmin
  | 0x3C => s.win.vmax
  | 0x40 => s.faultRegister
  | 0x44 => s.dmaSrcRegister
  | 0x48 => reg s.fb.xfer
  | 0x80 => reg s.tim.xscale
  | 0x84 => reg s.tim.yscale
  | 0x88 => reg s.tim.htotal
  | 0x8C => reg s.tim.hss
  | 0x90 => reg s.tim.hse
  | 0x94 => reg s.tim.vtotal
  | 0x98 => reg s.tim.vss
  | 0x9C => reg s.tim.vse
  | 0xA0 => reg s.tim.htotalClk
  | 0xA4 => reg s.tim.hsStartClk
  | 0xA8 => reg s.tim.hsWidthClk
  | 0xAC => reg s.tim.lockOffClk
  | 0xB0 => reg s.fb.width
  | 0xB4 => reg s.fb.height
  | 0xB8 => reg s.fb.stride
  | 0xBC => reg s.fb.size
  | 0xC0 => s.fb.base
  | 0xC4 => s.fb.aliasAddr
  | 0xC8 => reg s.tim.flineHz
  | 0xCC => reg s.tim.fframeMhz
  | 0xD0 => reg s.tim.cycle
  | 0xD4 => reg s.fb.wpl
  | _ => 0

/-- A write to the register at an offset other than CMD (R17, R18, R20): ARG0 to ARG3 take all 32 bits, CFG its two,
and a write to a read-only register or a reserved offset is ignored. -/
def State.writeRegister (s : State) (off : Nat) (v : Word) : State :=
  match off with
  | 0x04 => { s with args := { s.args with a0 := v } }
  | 0x08 => { s with args := { s.args with a1 := v } }
  | 0x0C => { s with args := { s.args with a2 := v } }
  | 0x10 => { s with args := { s.args with a3 := v } }
  | 0x2C => { s with cfg := v.setWidth 2 }
  | _ => s

/-- A register access has the one shape that is not a BUS fault: 32 bits at a multiple of 4 (20_memory.md R49). -/
def registerShape (off : BitVec 8) (w : Width) : Bool := w == .word && off.toNat % 4 == 0

/-- A host read of a register; of another shape it raises BUS and returns 0 (R17, 20_memory.md R49). -/
def State.readWindow (s : State) (off : BitVec 8) (w : Width) : State :=
  if registerShape off w then { s with busData := s.register off.toNat }
  else { s.raiseFault .bus with busData := 0 }

/-- The offset of an address in the register window, if it lies there (R16, log 5). -/
def windowOffset (a : Addr) : Option (BitVec 8) :=
  if (a - Config.blockBase).toNat < 256 then some ((a - Config.blockBase).setWidth 8) else none

/-- The address lies in SRAM (20_memory.md R43, log 4). -/
def inSram (a : Addr) : Bool := Config.sramBase ≤ a.toNat && a.toNat < Config.sramBase + Config.sramSize

/-- The address lies in the bit-band alias of SRAM (20_memory.md R50). -/
def inAlias (a : Addr) : Bool :=
  Config.aliasBase ≤ a.toNat && a.toNat < Config.aliasBase + 32 * Config.sramSize

/-- The SRAM byte that an alias word stands for (20_memory.md R50). -/
def aliasByte (a : Addr) : Addr := 0x20000000#32 + (a - 0x22000000#32) >>> 5

/-- The bit of that byte (20_memory.md R50). -/
def aliasBit (a : Addr) : Nat := (a - 0x22000000#32).toNat % 32 / 4

/-- GUARD if one of the `n` bytes written at an address is a guard-word byte (41_framebuffer.md R95). -/
def State.checkGuard (s : State) (a : Addr) (n : Nat) : State :=
  if s.touchesGuard a n then s.raiseFault .guard else s

/-- The low `n` bytes of a value. -/
def lowBytes (v : Word) (n : Nat) : Nat := v.toNat % 256 ^ n

/-- An aligned host read of memory (20_memory.md R44). -/
def State.readMemory (s : State) (a : Addr) (w : Width) : State :=
  { s with busData := reg (s.mem.load a w.bytes) }

/-- An aligned host write to memory: GUARD where it touches a guard word, and the write is performed
(41_framebuffer.md R95). -/
def State.writeMemory (s : State) (a : Addr) (w : Width) (v : Word) : State :=
  (s.checkGuard a w.bytes).store a w.bytes (lowBytes v w.bytes)

/-- A 32-bit read of an alias word (20_memory.md R50). -/
def State.readAlias (s : State) (a : Addr) : State :=
  { s with busData := (BitVec.ofBool ((s.byteAt (aliasByte a)).getLsbD (aliasBit a))).setWidth 32 }

/-- A 32-bit write to an alias word (20_memory.md R50); GUARD as for any host write (log 7). -/
def State.writeAlias (s : State) (a : Addr) (v : Word) : State :=
  (s.checkGuard (aliasByte a) 1).store (aliasByte a) 1
    (setBit (s.byteAt (aliasByte a)) (aliasBit a) (v.getLsbD 0)).toNat

/-- The access is aligned to its width (20_memory.md R51). -/
def aligned (a : Addr) (w : Width) : Bool := a.toNat % w.bytes == 0

/-- A host read outside the register window (20_memory.md R43, R50, R51; log 6 to log 9). -/
def State.busReadMemory (s : State) (a : Addr) (w : Width) : Host.Outcome State Fault Refusal :=
  if inAlias a then
    if w == .word && aligned a w then .next (s.readAlias a) else .refused .aliasAccessShape
  else if inSram a then
    if aligned a w then .next (s.readMemory a w) else .refused .misalignedAccess
  else .fault .unmappedAddress

/-- A host write outside the register window (20_memory.md R43, R50, R51; log 6 to log 9). -/
def State.busWriteMemory (s : State) (a : Addr) (w : Width) (v : Word) : Host.Outcome State Fault Refusal :=
  if inAlias a then
    if w == .word && aligned a w then .next (s.writeAlias a v) else .refused .aliasAccessShape
  else if inSram a then
    if aligned a w then .next (s.writeMemory a w v) else .refused .misalignedAccess
  else .fault .unmappedAddress

end Sys2Proof.Machine
end

