-- ==== Sys2Proof/Machine/HostPort.lean ====
section
/-! DEFINITION. The host's accesses with their effect (10_state.md R14, R17): a write to CMD runs the command it
encodes (30_encoding.md R61, R64). And the event service's run of a handler (60_exceptions.md R172). -/

namespace Sys2Proof.Machine

/-- A write of a word to CMD (30_encoding.md R61, R64): an ILLEGAL word changes nothing but STATUS. -/
def issueCommand (c : Word) (s : State) : Host.Outcome State Fault Refusal :=
  match decodeCmd c with
  | .ok i => exec i s
  | .error _ => .next (s.setStatus statusIllegal)

/-- A host write to the register window; of another shape than a 32-bit word it raises BUS and writes nothing
(R17, 20_memory.md R49). -/
def hostWriteWindow (off : BitVec 8) (w : Width) (v : Word) (s : State) : Host.Outcome State Fault Refusal :=
  if registerShape off w then
    if off = 0 then issueCommand v s else .next (s.writeRegister off.toNat v)
  else .next (s.raiseFault .bus)

/-- One host bus access. -/
def hostAccess (a : HostAccess) (s : State) : Host.Outcome State Fault Refusal :=
  match a with
  | .regRead off w => .next (s.readWindow off w)
  | .regWrite off w v => hostWriteWindow off w v s
  | .busRead addr w =>
    match windowOffset addr with
    | some off => .next (s.readWindow off w)
    | none => s.busReadMemory addr w
  | .busWrite addr w v =>
    match windowOffset addr with
    | some off => hostWriteWindow off w v s
    | none => s.busWriteMemory addr w v

/-- The return from a handler, after its outcome. -/
def afterHandler : Host.Outcome State Fault Refusal → Host.Outcome State Fault Refusal
  | .next s => .next s.leaveHandler
  | .fault r => .fault r
  | .refused r => .refused r

/-- The event service runs the handler of a source: its identifier goes through the one decoder (30_encoding.md R59,
R67; 60_exceptions.md R172). -/
def serveEvent (q : Source) (s : State) : Host.Outcome State Fault Refusal :=
  match decode (eventWord q) with
  | .ok i => afterHandler (exec i (s.enterHandler q))
  | .error _ => .next s

/-- The host may take a step: the CPU is awake and no WAIT holds it (60_exceptions.md R174). That nothing enabled is
pending is known when this is asked. -/
def State.hostFree (s : State) : Bool := !s.sleep && s.waiting.isNone

/-- The next thing that is not a handler: the host's move where it may move, else one tick (log 1). -/
def foreground (s : State) : Host.Outcome State Fault Refusal :=
  if s.hostFree then
    match s.inbox with
    | [] => .next s.tick
    | .idle :: rest => .next (State.tick { s with inbox := rest })
    | .access a :: rest => hostAccess a { s with inbox := rest }
  else .next s.tick

/-- The source of an event identifier. -/
def sourceOf : Instr → Option Source
  | .evLt => some .lt
  | .evHc => some .hc
  | .evDmac => some .dma
  | .begin _ => none
  | .beginComposite _ => none
  | .endMode => none
  | .setMonitorRange => none
  | .setPixel => none
  | .getPixel => none
  | .waitVblank => none
  | .waitActive => none

/-- The controller with exactly one source enabled and pending. -/
def Nvic.only (n : Nvic) (q : Source) : Nvic :=
  let clear := ((n.setPend .lt false).setPend .hc false).setPend .dma false
  match q with
  | .lt => { clear with global := true, lt := { clear.lt with en := true, pend := true } }
  | .hc => { clear with global := true, hc := { clear.hc with en := true, pend := true } }
  | .dma => { clear with global := true, dma := { clear.dma with en := true, pend := true } }

/-- The state whose next step runs the handler of a source (log 2). -/
def State.withEvent (s : State) (q : Source) : State := { s with nvic := s.nvic.only q }

/-- The state whose next step is the host's write of a word to CMD (log 2). -/
def State.withCommand (s : State) (c : Word) : State :=
  { s with
    nvic := ((s.nvic.setPend .lt false).setPend .hc false).setPend .dma false
    sleep := false
    waiting := none
    inbox := .access (.regWrite 0 .word c) :: s.inbox }

/-- The state whose next step fetches a word: an event identifier is put before the event service, any other word
before the CMD register. -/
def State.withWord (s : State) (c : Word) : State :=
  match decode c with
  | .ok i =>
    match sourceOf i with
    | some q => s.withEvent q
    | none => s.withCommand c
  | .error _ => s.withCommand c

end Sys2Proof.Machine
end

