-- ==== Sys2Proof/Machine/Step.lean ====
section
/-! DEFINITION. One step of the machine: a handler body where an enabled event is pending, else the host's move or a
tick (10_state.md R14; 60_exceptions.md R172, R174; log 1). -/

namespace Sys2Proof.Machine

/-- One step. -/
def step (s : State) : Host.Outcome State Fault Refusal :=
  match s.nextEvent with
  | some q => serveEvent q s
  | none => foreground s

/-- The state whose very next step runs the operation whose word has the low `nbits` bits of `w` (log 2). -/
def State.withFetchWord (s : State) (nbits w : Nat) : State := s.withWord (BitVec.ofNat 32 (w % 2 ^ nbits))

end Sys2Proof.Machine
end

