-- ==== Sys2Proof/Machine/Outputs.lean ====
section
/-! DEFINITION. The pins as functions of the state: the observable trace of 43_scanline_vga.md R131. -/

namespace Sys2Proof.Machine

/-- The level of a pin. -/
inductive Level where
  /-- not driven -/
  | hiZ
  /-- driven to a level -/
  | driven (v : Bool)
  /-- routed to a unit that no rule gives a level now (R131, log 30) -/
  | unstated
deriving DecidableEq, Repr

/-- The hsync pin: the PWM pulse with its polarity, or not driven (R109). -/
def State.hsyncPin (s : State) : Level :=
  match s.gpio.hsync with
  | .hiZ => .hiZ
  | .pwm => .driven (decide (s.pwm.cnt < s.pwm.width) ^^ s.pwm.pol)

/-- The vsync pin (R118). -/
def State.vsyncPin (s : State) : Level :=
  match s.gpio.vsync with
  | .hiZ => .hiZ
  | .out => .driven s.gpio.vlevel

/-- How long the first unit of the transfer in flight has been out at the destination `dst`; none before it, or if no
transfer goes there (R121). With a unit time of 0 every unit goes out at the same tick and none has an interval of its
own: no unit is shown (log 13). -/
def State.sendingFor (s : State) (dst : DmaDst) : Option Nat :=
  if s.dma.busy && s.dma.dst == dst && decide (s.dma.flight.lat ≤ s.dma.flight.age) && decide (0 < s.unitTime)
  then some (s.dma.flight.age - s.dma.flight.lat)
  else none

/-! ### The value of each unit (R121, R122; 20_memory.md R56). -/

/-- From `s` to the next state `t` the transfer in flight stays in flight: every other one starts with a draw. -/
def State.sameTransfer (s t : State) : Bool := t.dma.busy && t.draws == s.draws

/-- The units with which the transfer in flight ends, at most `n` steps on. -/
def State.unitsAtEnd : Nat → State → List Halfword
  | 0, s => s.dma.flight.units
  | n + 1, s =>
    match step s with
    | .next t => if s.sameTransfer t then t.unitsAtEnd n else s.dma.flight.units
    | .fault _ => s.dma.flight.units
    | .refused _ => s.dma.flight.units

/-- How many sources are pending. -/
def Nvic.pending (n : Nvic) : Nat := n.lt.pend.toNat + n.hc.pend.toNat + n.dma.pend.toNat

/-- A bound on the steps until the transfer in flight ends: each tick brings it nearer and raises at most three events,
each handler takes one event off, and each other move takes one off the host's list. -/
def State.stepsLeft (s : State) : Nat :=
  4 * (s.transferTime - s.dma.flight.age) + s.inbox.length + s.nvic.pending

/-- The one value that each unit of the transfer in flight is sent with. A unit may return a value that its bytes come to
hold as late as the completion (R56, R121), so it is the value that the transfer ends with, in its record (R131) as on
the pins from the unit's first tick to its last (log 29). -/
def State.sentUnits (s : State) : List Halfword := s.unitsAtEnd s.stepsLeft

/-- The mono data pin. Routed to the SPI it carries each unit's bits, most significant first, `P.spi.div` ticks each
(R121, R122, 20_memory.md R47). -/
def State.dataPin (s : State) : Level :=
  match s.gpio.data with
  | .hiZ => .hiZ
  | .gpioLow => .driven false
  | .spi =>
    match s.sendingFor .spi with
    | none => .unstated
    | some t =>
      let bit := t / s.spi.div
      match s.sentUnits[bit / 16]? with
      | none => .unstated
      | some u => .driven (u.getLsbD (15 - bit % 16))

/-- The byte on the parallel port, while a transfer sends one (R121, R122). -/
def State.portByte (s : State) : Option Byte :=
  match s.gpio.port with
  | .hiZ => none
  | .port =>
    match s.sendingFor .port with
    | none => none
    | some t => (s.sentUnits[t / s.port.div]?).map fun u => u.setWidth 8

end Sys2Proof.Machine
end

