-- ==== Sys2Proof/Safety.lean ====
section
/-! DEFINITION. What counts as a safe run, in the terms claims use: the invariants that the rules state, and the
hazards that FAULT records. -/

namespace Sys2Proof.Machine

/-- Host memory is in its canonical form. -/
def State.MemoryInv (s : State) : Prop := s.mem.wf

/-- No hazard of 70_reset_and_hazards.md R182 to R184 has been recorded. -/
def State.hazardFree (s : State) : Bool := !(s.hasFault .overrun || s.hasFault .reload || s.hasFault .rewind)

/-- Off: nothing of a mode is left (45_lifecycle.md R153, R165; 42_sequencer.md R106). -/
structure State.OffInv (s : State) : Prop where
  mode : s.mode = .off
  tim : s.tim = .reset
  fb : s.fb = .reset
  nvic : s.nvic = .reset
  dma : s.dma = .reset
  gpio : s.gpio = .reset
  pwmEn : s.pwm.en = false
  ltEn : s.lt.en = false
  armed : s.armed = false
  synced : s.synced = false
  ldpend : s.ldpend = false
  vsync : s.vsync = false
  sleep : s.sleep = false

/-- Running: a buffer is allocated, the mode's interrupts are on, and both timers run, each with its count below its
period; the line timer's is one short of the line before the lock (45_lifecycle.md R165.4; 42_sequencer.md R99, R101,
R102, R105; 10_state.md R28, R29; 43_scanline_vga.md R114). -/
structure State.RunningInv (s : State) : Prop where
  mode : s.mode ≠ .off
  valid : s.fb.valid = true
  global : s.nvic.global = true
  ltEn : s.nvic.lt.en = true
  hcEn : s.nvic.hc.en = s.mode.isVga
  dmaEn : s.nvic.dma.en = (s.mode == .mono)
  prio : s.nvic.lt.prio = 0 ∧ s.nvic.hc.prio = 1 ∧ s.nvic.dma.prio = 2
  pwmEn : s.pwm.en = true
  timerEn : s.lt.en = true
  pwmPeriod : s.pwm.period = s.tim.htotalClk
  pwmCount : s.pwm.cnt < s.pwm.period
  timerPeriod : s.lt.period = if s.synced then s.tim.htotalClk else s.tim.htotalClk - 1
  timerCount : s.lt.cnt < s.lt.period

/-- The lifecycle invariant (10_state.md R21, 45_lifecycle.md R165). -/
def State.LifeInv (s : State) : Prop := (s.life = .off → s.OffInv) ∧ (s.life = .running → s.RunningInv)

/-- The timing record and the raster of a VGA mode (10_state.md R22, R24; 40_modeline.md R74, R81). -/
structure State.VgaInv (s : State) : Prop where
  xscale : 2 ≤ s.tim.xscale
  colorXscale : s.mode = .color → 6 ≤ s.tim.xscale
  horizontal : s.tim.hss < s.tim.hse ∧ s.tim.hse < s.tim.htotal
  vertical : s.tim.vss < s.tim.vse ∧ s.tim.vse < s.tim.vtotal
  picture : s.fb.height < s.tim.vss
  lines : s.tim.vtotal < 2 ^ 16
  doubling : 1 ≤ s.tim.yscale ∧ s.tim.yscale ≤ 8
  line : s.line.toNat < s.tim.vtotal
  sub : s.sub.toNat < s.tim.yscale

/-- The raster, the slots and the transfer of a composite mode (10_state.md R24, R25; 44_composite.md R133, R138,
R143). -/
structure State.CompositeInv (s : State) (std : Standard) : Prop where
  tim : s.tim = compositeTiming std
  line : s.line.toNat < Config.cTotal std
  phase : s.phase.toNat < Config.cCycle std
  slot0 : s.cslot0.length = Config.cSlotLen std
  slot1 : s.cslot1.length = Config.cSlotLen std
  vsync : s.vsync = false
  armed : s.armed = false
  ldpend : s.ldpend = false
  tag : s.dma.flight.origin.toNat < 2
  source : s.dma.busy = true → s.dma.flight.fromSlot = true

/-- The raster invariant of the mode that runs. -/
def State.RasterInv (s : State) : Prop :=
  (s.mode.isVga = true → s.VgaInv) ∧ ∀ std, s.mode.standard = some std → s.CompositeInv std

end Sys2Proof.Machine
end

