-- ==== Sys2Proof/Certificates/Slice0/Obligations.lean ====
section
/-! DEFINITION. The statements for the provers. They come from the numbered rules of spec/; each docstring names its
rule. A statement over every state takes as premises only conditions on the state and the operands, or an invariant
of Safety.lean that a statement of its own shows to be kept. -/

open Sys2Proof Sys2Proof.Machine

/-! ## Encoding (30_encoding.md) -/

/-- R59, R60, R62, R67: the word of a well-formed operation decodes to it, as a word and as its four bytes; written to
CMD it names that operation exactly if the host may issue it. -/
def Obligations.DecodeEncodeAgree : Prop :=
  ∀ i : Instr, i.wellFormed = true →
    decode (encode i) = .ok i ∧ decodeBytes (tableBytes 32 (encode i).toNat) = .ok i ∧
      (decodeCmd (encode i) = .ok i ↔ i.hostIssuable = true)

/-- R60, R62: an operation has one word only, and what decodes is well-formed. -/
def Obligations.EncodeDecodeAgree : Prop :=
  ∀ (c : Word) (i : Instr), decode c = .ok i → encode i = c ∧ i.wellFormed = true

/-- R62, R69: words written out from the opcode map, one for each operation. -/
def Obligations.MapWordsDecode : Prop :=
  decode 0b00000000000000000000001000000001#32 = .ok (.begin 2) ∧
    decode 0b00000000000000000000010000000010#32 = .ok (.beginComposite 4) ∧
    decode 0b00000000000000000000000000000011#32 = .ok .endMode ∧
    decode 0b00000000000000000000000000000100#32 = .ok .setMonitorRange ∧
    decode 0b00000000000000000000000000000101#32 = .ok .setPixel ∧
    decode 0b00000000000000000000000000000110#32 = .ok .getPixel ∧
    decode 0b00000000000000000000000000000111#32 = .ok .waitVblank ∧
    decode 0b00000000000000000000000000001000#32 = .ok .waitActive ∧
    decode 0b00000000000000000000000010000001#32 = .ok .evLt ∧
    decode 0b00000000000000000000000010000010#32 = .ok .evHc ∧
    decode 0b00000000000000000000000010000011#32 = .ok .evDmac

/-- R64, R66: the decode of a word written to CMD. With RSV = 0, each OP from 0x01 to 0x08 names its command, with any
SEL under 0x01 and 0x02 and with SEL = 0 under the others. Every other word is ILLEGAL: it changes no state except
STATUS, which becomes -5. -/
def Obligations.CommandWordsDecodeOrOnlySetStatus : Prop :=
  ∀ c : Word,
    let op := c.toNat % 256
    let sel := c.toNat / 256 % 256
    (c.toNat / 65536 = 0 →
      (op = 1 → decodeCmd c = .ok (.begin sel)) ∧ (op = 2 → decodeCmd c = .ok (.beginComposite sel)) ∧
      (sel = 0 →
        (op = 3 → decodeCmd c = .ok .endMode) ∧ (op = 4 → decodeCmd c = .ok .setMonitorRange) ∧
        (op = 5 → decodeCmd c = .ok .setPixel) ∧ (op = 6 → decodeCmd c = .ok .getPixel) ∧
        (op = 7 → decodeCmd c = .ok .waitVblank) ∧ (op = 8 → decodeCmd c = .ok .waitActive))) ∧
      ((∃ e, decodeCmd c = .error e) ↔
        (c.toNat / 65536 ≠ 0 ∨ 128 ≤ op ∨ op = 0 ∨ 9 ≤ op ∨ 3 ≤ op ∧ sel ≠ 0)) ∧
      ∀ s : State, (∃ e, decodeCmd c = .error e) → issueCommand c s = .next { s with status := 0xFFFFFFFB#32 }

/-! ## Steps (10_state.md R14, 60_exceptions.md R172 to R175) -/

/-- A STEP RUNS THE DECODED COMMAND (R61, R174): with the host free to move, nothing to serve, and a 32-bit write of a
word to CMD next, the step is `exec` of what the word names. -/
def Obligations.StepRunsHostCommand : Prop :=
  ∀ (s : State) (c v : Word) (off : BitVec 8) (i : Instr) (rest : List HostMove),
    s.nextEvent = none → s.sleep = false → s.waiting = none → off = 0 → v = c →
      s.inbox = .access (.regWrite off .word v) :: rest → decodeCmd c = .ok i →
        step s = exec i { s with inbox := rest }

/-- A STEP RUNS THE PENDING HANDLER (R172, R175): the step is the handler's `exec` between the entry (the source no
longer pending, the CPU awake, nothing else changed) and the return. The return changes nothing, but that a WAIT that
holds the host looks at its predicate, and ends with STATUS 0 if it holds (R162; inside the same step: log 18). -/
def Obligations.StepRunsPendingHandler : Prop :=
  ∀ (s : State) (q : Source), s.nextEvent = some q →
    ∃ t, exec (handlerOf q) (s.enterHandler q) = .next t ∧ step s = .next t.leaveHandler ∧
      (s.enterHandler q).nvic.line q = { s.nvic.line q with pend := false } ∧
      (∀ q', q' ≠ q → (s.enterHandler q).nvic.line q' = s.nvic.line q') ∧
      (s.enterHandler q).nvic.global = s.nvic.global ∧
      s.enterHandler q = { s with nvic := (s.enterHandler q).nvic, sleep := false } ∧
      (t.waiting = none → t.leaveHandler = t) ∧
      ∀ w, t.waiting = some w → t.leaveHandler =
        if (match w with | .vblank => t.vblank | .active => t.active) = true
        then { t with status := 0#32, waiting := none } else t

/-- R172: the source served is pending and enabled, and no pending enabled source has a smaller level; none is served
exactly if the global enable is off or nothing enabled is pending. -/
def Obligations.ServiceTakesHighestPriority : Prop :=
  ∀ s : State,
    (∀ q, s.nextEvent = some q →
      s.nvic.global = true ∧ (s.nvic.line q).en = true ∧ (s.nvic.line q).pend = true ∧
        ∀ q', (s.nvic.line q').en = true → (s.nvic.line q').pend = true →
          (s.nvic.line q).prio ≤ (s.nvic.line q').prio) ∧
    (s.nextEvent = none ↔
      s.nvic.global = false ∨ ∀ q, ¬((s.nvic.line q).en = true ∧ (s.nvic.line q).pend = true))

/-- R174: the host takes a step only while the CPU is awake and no source is enabled and pending under the global
enable; a WAIT holds it too. Otherwise its next moves stay where they are. What a step is where nothing is to be served
is the schedule of log 1 (R108, R152): the host's next access if the gate is open and one is first in its list; one tick
of the master clock if the CPU sleeps, a WAIT holds the host or it has no move left; and one tick, with the mark taken
off, if an idle mark is first. -/
def Obligations.HostGateHolds : Prop :=
  ∀ s : State,
    let quiet : Prop := ¬(s.nvic.global = true ∧ ∃ q, (s.nvic.line q).en = true ∧ (s.nvic.line q).pend = true)
    let gate : Prop := s.sleep = false ∧ quiet
    (¬gate ∨ s.waiting ≠ none → ∀ t, step s = .next t → t.inbox = s.inbox) ∧
    (gate → s.waiting = none → ∀ a rest, s.inbox = .access a :: rest →
      step s = hostAccess a { s with inbox := rest }) ∧
    (quiet → s.sleep = true ∨ s.waiting ≠ none ∨ s.inbox = [] → step s = .next s.tick) ∧
    (gate → s.waiting = none → ∀ rest, s.inbox = .idle :: rest →
      step s = .next (State.tick { s with inbox := rest }))

/-- R171: an event of a disabled source changes nothing; one of an enabled source is pending afterwards, wakes the CPU,
and raises OVERRUN exactly if it was pending before. -/
def Obligations.RecordingAnEvent : Prop :=
  ∀ (s : State) (q : Source),
    ((s.nvic.line q).en = false → s.raiseEvent q = s) ∧
    ((s.nvic.line q).en = true →
      s.raiseEvent q =
        { s with
          nvic := (s.raiseEvent q).nvic
          sleep := false
          fault := if (s.nvic.line q).pend then s.fault ||| 0b000100#6 else s.fault } ∧
      (s.raiseEvent q).nvic.line q = { s.nvic.line q with pend := true } ∧
      (s.raiseEvent q).nvic.global = s.nvic.global ∧
      ∀ q', q' ≠ q → (s.raiseEvent q).nvic.line q' = s.nvic.line q')

/-! ## Reset, registers and faults (70_reset_and_hazards.md, 10_state.md, 60_exceptions.md) -/

/-- R178: the machine after reset, field by field, and every register of the window reads its Reset column. (The slots
and host memory have no reset value there; the model's are log 19 and log 3.) -/
def Obligations.ResetStateIsTheTable : Prop :=
  State.reset.life = .off ∧ State.reset.mode = .off ∧
    State.reset.tim = ⟨0, 0, 0, 0, 0, 0, 0, 0, 0, 0, 0, 0, 0, 0, 0⟩ ∧
    State.reset.fb = ⟨false, 0, 0, 0, 0, 0, 0, 0, 0⟩ ∧
    State.reset.line = 0 ∧ State.reset.sub = 0 ∧ State.reset.phase = 0 ∧ State.reset.frame = 0 ∧
    State.reset.synced = false ∧ State.reset.armed = false ∧ State.reset.ldpend = false ∧
    State.reset.vsync = false ∧ State.reset.vpol = false ∧ State.reset.win = ⟨27000, 83000, 57, 70⟩ ∧
    State.reset.status = 0 ∧ State.reset.result = 0 ∧ State.reset.args = ⟨0, 0, 0, 0⟩ ∧ State.reset.cfg = 3 ∧
    State.reset.fault = 0 ∧ State.reset.pwm = ⟨false, 0, 0, 0, true⟩ ∧ State.reset.lt = ⟨false, 0, 0⟩ ∧
    State.reset.dma.busy = false ∧ State.reset.dma.src = 0 ∧ State.reset.dma.len = 0 ∧
    State.reset.dma.unit = 1 ∧ State.reset.dma.dst = .none ∧ State.reset.dma.done = false ∧
    State.reset.dma.irq = false ∧ State.reset.spi = ⟨false, 0, 16⟩ ∧ State.reset.port = ⟨false, 0⟩ ∧
    State.reset.gpio = ⟨.hiZ, .hiZ, false, .hiZ, .hiZ⟩ ∧ (∀ q, State.reset.nvic.line q = ⟨false, false, 3⟩) ∧
    State.reset.nvic.global = false ∧ State.reset.dmaFirst = false ∧ State.reset.sleep = false ∧
    ∀ off : BitVec 8, State.reset.register off.toNat =
      if off = 0x2C then 3 else if off = 0x30 then 27000 else if off = 0x34 then 83000
      else if off = 0x38 then 57 else if off = 0x3C then 70 else 0

/-- The three invariants of Safety.lean hold at reset. (That reset memory lists no byte is the model's choice, log 3.) -/
def Obligations.ResetMeetsTheInvariants : Prop :=
  State.reset.MemoryInv ∧ State.reset.LifeInv ∧ State.reset.RasterInv

/-- R168: nothing clears a FAULT bit but reset: no step of any agent, whatever the state. -/
def Obligations.FaultBitsAreSticky : Prop :=
  ∀ (s t : State) (k : FaultBit), step s = .next t → s.hasFault k = true → t.hasFault k = true

/-- R19: the fields of the STATE register, and its reset value. -/
def Obligations.StateRegisterFields : Prop :=
  State.reset.stateRegister = 0 ∧ ∀ s : State,
    let v := s.stateRegister
    (v.extractLsb' 0 3).toNat = (match s.mode with | .off => 0 | .mono => 1 | .color => 2 | .ntsc => 3 | .pal => 4) ∧
      (v.getLsbD 3 = true ↔ s.life = .running) ∧ v.getLsbD 4 = s.synced ∧ v.getLsbD 5 = s.armed ∧
      v.getLsbD 6 = s.ldpend ∧ v.getLsbD 7 = s.vsync ∧ v.getLsbD 8 = s.dma.busy ∧ v.getLsbD 9 = s.dma.done ∧
      (v.getLsbD 10 = true ↔ s.gpio.data = .spi) ∧ ∀ k, 11 ≤ k → v.getLsbD k = false

/-- R49: a register access that is not 32 bits wide, or at an offset that is no multiple of 4, raises BUS and has no
other effect; the read returns 0. It holds for both forms of access. The form by offset, the window's precedence where it
overlaps SRAM or the alias, and that an access whose first byte lies in the window is a register access as a whole are
the model's choice (log 5). -/
def Obligations.BadRegisterShapeRaisesBus : Prop :=
  ∀ (s : State) (off : BitVec 8) (w : Width) (v : Word), w ≠ .word ∨ off.toNat % 4 ≠ 0 →
    let a : Addr := Config.blockBase + off.setWidth 32
    let readFails : Host.Outcome State Fault Refusal := .next { s with fault := s.fault ||| 0b100000#6, busData := 0 }
    let writeFails : Host.Outcome State Fault Refusal := .next { s with fault := s.fault ||| 0b100000#6 }
    hostAccess (.regRead off w) s = readFails ∧ hostAccess (.busRead a w) s = readFails ∧
      hostAccess (.regWrite off w v) s = writeFails ∧ hostAccess (.busWrite a w v) s = writeFails

/-- R16, R17, R18, R20: a 32-bit write replaces ARG0 to ARG3 whole and the two bits of CFG, runs a command at CMD, and
is ignored at a read-only or reserved offset. A 32-bit read returns the content that the table of R16 gives the offset,
0 at CMD and at every reserved one, and changes nothing else. An aligned 32-bit access at the address BLOCK_BASE + offset
(R43) is the same access; that the host may name it by its offset is log 5. What DMA_SRC shows in NTSC and PAL, the tag
of the slot last sent, is log 14. -/
def Obligations.RegisterWritesAndReads : Prop :=
  ∀ (s : State) (v : Word),
    hostAccess (.regWrite 0x00 .word v) s = issueCommand v s ∧
    hostAccess (.regWrite 0x04 .word v) s = .next { s with args := { s.args with a0 := v } } ∧
    hostAccess (.regWrite 0x08 .word v) s = .next { s with args := { s.args with a1 := v } } ∧
    hostAccess (.regWrite 0x0C .word v) s = .next { s with args := { s.args with a2 := v } } ∧
    hostAccess (.regWrite 0x10 .word v) s = .next { s with args := { s.args with a3 := v } } ∧
    (∃ t, hostAccess (.regWrite 0x2C .word v) s = .next t ∧ t = { s with cfg := t.cfg } ∧
      t.register 0x2C = v &&& 3#32) ∧
    (∀ off : BitVec 8, off.toNat % 4 = 0 → off ∉ [0x00#8, 0x04#8, 0x08#8, 0x0C#8, 0x10#8, 0x2C#8] →
      hostAccess (.regWrite off .word v) s = .next s) ∧
    (∀ p ∈ [(0x00#8, 0#32), (0x04#8, s.args.a0), (0x08#8, s.args.a1), (0x0C#8, s.args.a2), (0x10#8, s.args.a3),
        (0x14#8, s.status), (0x18#8, s.result), (0x1C#8, s.stateRegister), (0x20#8, 0#12 ++ s.sub ++ s.line),
        (0x24#8, s.frame), (0x28#8, s.phase.setWidth 32), (0x2C#8, s.cfg.setWidth 32), (0x30#8, s.win.hmin),
        (0x34#8, s.win.hmax), (0x38#8, s.win.vmin), (0x3C#8, s.win.vmax), (0x40#8, s.fault.setWidth 32),
        (0x48#8, BitVec.ofNat 32 s.fb.xfer), (0x80#8, BitVec.ofNat 32 s.tim.xscale),
        (0x84#8, BitVec.ofNat 32 s.tim.yscale), (0x88#8, BitVec.ofNat 32 s.tim.htotal),
        (0x8C#8, BitVec.ofNat 32 s.tim.hss), (0x90#8, BitVec.ofNat 32 s.tim.hse),
        (0x94#8, BitVec.ofNat 32 s.tim.vtotal), (0x98#8, BitVec.ofNat 32 s.tim.vss),
        (0x9C#8, BitVec.ofNat 32 s.tim.vse), (0xA0#8, BitVec.ofNat 32 s.tim.htotalClk),
        (0xA4#8, BitVec.ofNat 32 s.tim.hsStartClk), (0xA8#8, BitVec.ofNat 32 s.tim.hsWidthClk),
        (0xAC#8, BitVec.ofNat 32 s.tim.lockOffClk), (0xB0#8, BitVec.ofNat 32 s.fb.width),
        (0xB4#8, BitVec.ofNat 32 s.fb.height), (0xB8#8, BitVec.ofNat 32 s.fb.stride),
        (0xBC#8, BitVec.ofNat 32 s.fb.size), (0xC0#8, s.fb.base), (0xC4#8, s.fb.aliasAddr),
        (0xC8#8, BitVec.ofNat 32 s.tim.flineHz), (0xCC#8, BitVec.ofNat 32 s.tim.fframeMhz),
        (0xD0#8, BitVec.ofNat 32 s.tim.cycle), (0xD4#8, BitVec.ofNat 32 s.fb.wpl),
        (0x44#8, if s.mode = .ntsc ∨ s.mode = .pal then s.dma.flight.origin else s.dma.src)],
      hostAccess (.regRead p.1 .word) s = .next { s with busData := p.2 }) ∧
    (∀ off : BitVec 8, off.toNat % 4 = 0 → 0x4C ≤ off.toNat ∧ off.toNat < 0x80 ∨ 0xD8 ≤ off.toNat →
      hostAccess (.regRead off .word) s = .next { s with busData := 0#32 }) ∧
    ∀ off : BitVec 8, off.toNat % 4 = 0 →
      let a : Addr := Config.blockBase + off.setWidth 32
      hostAccess (.busRead a .word) s = hostAccess (.regRead off .word) s ∧
        hostAccess (.busWrite a .word v) s = hostAccess (.regWrite off .word v) s

/-! ## Lifecycle (45_lifecycle.md) -/

/-- R160: SET_MONITOR_RANGE stores ARG0 to ARG3 as the window, without validation, with STATUS 0. -/
def Obligations.SetMonitorRangeStoresWindow : Prop :=
  ∀ s : State, exec .setMonitorRange s =
    .next { s with win := ⟨s.args.a0, s.args.a1, s.args.a2, s.args.a3⟩, status := 0#32 }

/-- R165.5: the window changes only through SET_MONITOR_RANGE: a step that changes it is that command, run by the first
access of the host's list. -/
def Obligations.WindowChangesOnlyBySetMonitorRange : Prop :=
  ∀ s t : State, step s = .next t → t.win ≠ s.win →
    ∃ a rest, s.inbox = .access a :: rest ∧ s.hostFree = true ∧
      hostAccess a { s with inbox := rest } = .next t ∧ exec .setMonitorRange { s with inbox := rest } = .next t

/-- R159, R153, R179: END while Off changes nothing, STATUS included. END while Running gives STATUS 0 and the reset
state, but for the window, CFG, FAULT, ARG, RESULT, the PWM polarity and the slots. Memory and the model's own fields
stay. (That the divisors of the SPI and the port return to 0 is the model's choice, log 15.) -/
def Obligations.EndReturnsToReset : Prop :=
  ∀ s : State, (s.life = .off → exec .endMode s = .next s) ∧ (s.life = .running → exec .endMode s = .next
    { State.reset with
      win := s.win, cfg := s.cfg, fault := s.fault, args := s.args, result := s.result, status := 0#32
      pwm := { State.reset.pwm with pol := s.pwm.pol }
      cslot0 := s.cslot0, cslot1 := s.cslot1
      spi := { State.reset.spi with bits := s.spi.bits }
      mem := s.mem, inbox := s.inbox, waiting := s.waiting, busData := s.busData, lastSent := s.lastSent
      draws := s.draws, races := s.races })

/-- R154: BEGIN with a supported mode, a size in range, a timing and enough memory answers a Running machine: the
solver's timing, a zeroed buffer of the mode's layout, the peripherals and the raster as arm leaves them (R99 to R105),
the mode's interrupts on, STATUS 0. It keeps the window, CFG, FAULT, ARG and RESULT, and every byte outside the buffer.
HMARGIN_CLK is an OPEN parameter (R8): BEGIN is `beginWith` at the machine's own margin, and what it does is said for
every margin. -/
def Obligations.BeginStartsVgaMode : Prop :=
  ∀ (s : State) (sel : Nat), exec (.begin sel) s = .next (s.beginWith Config.hmarginClk sel) ∧
    ∀ (margin : Nat) (mode : Mode) (tim : Timing),
    (sel = 0 ∨ sel = 1) ∧ mode = .mono ∨ sel = 2 ∧ mode = .color →
    8 ≤ s.args.a0.toNat → s.args.a0.toNat ≤ 800 → 1 ≤ s.args.a1.toNat →
    (mode = .color → s.args.a1.toNat ≤ 380) →
    solve margin s.args.a0.toNat s.args.a1.toNat (mode == .color) s.win = some tim →
    bufferSize mode s.args.a0.toNat s.args.a1.toNat ≤ Config.fbCapacityBytes →
    let t := s.beginWith margin sel
    ∃ base : Addr,
      t.life = .running ∧ t.mode = mode ∧ t.status = 0#32 ∧ t.tim = tim ∧
      t.fb = bufferOf mode s.args.a0.toNat s.args.a1.toNat base ∧
      (∀ x : Addr, t.byteAt x =
        if base.toNat ≤ x.toNat ∧ x.toNat < base.toNat + t.fb.size then 0#8 else s.byteAt x) ∧
      t.nvic = ⟨⟨true, false, 0⟩, ⟨true, false, 1⟩, ⟨mode == .mono, false, 2⟩, true⟩ ∧ t.dmaFirst = true ∧
      t.line = 0 ∧ t.sub = 0 ∧ t.phase = 0 ∧ t.synced = false ∧ t.armed = true ∧ t.ldpend = false ∧
      t.vsync = false ∧ t.vpol = s.cfg.getLsbD 1 ∧ t.frame = 0 ∧ t.sleep = false ∧
      t.pwm = ⟨true, 0, tim.htotalClk, tim.hsWidthClk, s.cfg.getLsbD 0⟩ ∧
      t.lt.en = true ∧ t.lt.period = tim.htotalClk - 1 ∧ t.lt.cnt < tim.htotalClk - 1 ∧
      t.dma = { busy := false, src := base, len := 0, unit := if mode = .mono then 2 else 1,
                dst := if mode = .mono then .spi else .port, done := false, irq := mode == .mono,
                flight := t.dma.flight } ∧
      (mode = .mono → t.spi = ⟨true, tim.xscale, 16⟩ ∧ t.port.en = false) ∧
      (mode = .color → t.port = ⟨true, tim.xscale⟩ ∧ t.spi.en = false) ∧
      t.gpio = ⟨.pwm, .out, s.cfg.getLsbD 1, if mode = .mono then .gpioLow else .hiZ,
        if mode = .mono then .hiZ else .port⟩ ∧
      t.win = s.win ∧ t.cfg = s.cfg ∧ t.fault = s.fault ∧ t.args = s.args ∧ t.result = s.result ∧
      t.cslot0 = s.cslot0 ∧ t.cslot1 = s.cslot1

/-- R154, R155, R65: where BEGIN fails, in the order of its steps: it leaves the stopped machine with the status of
the first check that fails, and no timing. A Color request higher than 380 gives -3 before the solver is asked, the 640×480
of R156 and R157 among them, which those examples give -1 (log 33). What depends on HMARGIN_CLK, an OPEN parameter (R8),
is said for every margin. -/
def Obligations.BeginRejectsInOrder : Prop :=
  ∀ (s : State) (sel : Nat),
    let w := s.args.a0.toNat
    let h := s.args.a1.toNat
    let mode := if sel = 2 then Mode.color else Mode.mono
    (2 < sel → exec (.begin sel) s = .next { s.stop with status := 0xFFFFFFFC#32 }) ∧
    (sel ≤ 2 → w < 8 ∨ 800 < w ∨ h = 0 → exec (.begin sel) s = .next { s.stop with status := 0xFFFFFFFC#32 }) ∧
    (sel ≤ 2 → 8 ≤ w → w ≤ 800 → 0 < h →
      (sel = 2 → 380 < h → exec (.begin sel) s = .next { s.stop with status := 0xFFFFFFFD#32 }) ∧
      ((sel = 2 → h ≤ 380) →
        exec (.begin sel) s = .next (s.beginWith Config.hmarginClk sel) ∧
        ∀ margin,
          (solve margin w h (sel == 2) s.win = none →
            s.beginWith margin sel = { s.stop with status := 0xFFFFFFFF#32 }) ∧
          ∀ tim, solve margin w h (sel == 2) s.win = some tim →
            Config.fbCapacityBytes < bufferSize mode w h →
            s.beginWith margin sel = { s.stop with tim := .reset, status := 0xFFFFFFFE#32 }))

/-- R158, R133: BEGIN_COMPOSITE with SEL 3 or 4 always answers a Running machine with the constants of the standard, the
peripherals and the raster as arm leaves them (R99 to R105) and STATUS 0; with any other SEL it leaves the stopped
machine with STATUS -4. -/
def Obligations.BeginCompositeStartsOrRejects : Prop :=
  ∀ (s : State) (sel : Nat),
    (∀ std, sel = 3 ∧ std = .ntsc ∨ sel = 4 ∧ std = .pal →
      ∃ (t : State) (base : Addr), exec (.beginComposite sel) s = .next t ∧
        t.life = .running ∧ t.mode = modeOfStandard std ∧ t.status = 0#32 ∧
        t.tim = ⟨0, 1, 0, 0, 0, if sel = 3 then 262 else 312, 0, 0, if sel = 3 then 5324 else 5376, 0, 0,
          Config.cLockOffClk std, if sel = 3 then 15777 else 15625, if sel = 3 then 60219 else 50080,
          if sel = 3 then 88 else 30⟩ ∧
        t.fb = ⟨true, base, 320, if sel = 3 then 200 else 240, 0, 320, if sel = 3 then 64000 else 76800, 0,
          Config.cSlotLen std⟩ ∧
        (∀ x : Addr, t.byteAt x =
          if base.toNat ≤ x.toNat ∧ x.toNat < base.toNat + t.fb.size then 0#8 else s.byteAt x) ∧
        t.nvic = ⟨⟨true, false, 0⟩, ⟨false, false, 1⟩, ⟨false, false, 2⟩, true⟩ ∧ t.dmaFirst = true ∧
        t.line = 0 ∧ t.sub = 0 ∧ t.phase = 0 ∧ t.synced = false ∧ t.armed = false ∧ t.ldpend = false ∧
        t.vsync = false ∧ t.vpol = s.cfg.getLsbD 1 ∧ t.frame = 0 ∧ t.sleep = false ∧
        t.cslot0 = List.replicate (Config.cSlotLen std) 0#8 ∧ t.cslot1 = List.replicate (Config.cSlotLen std) 0#8 ∧
        t.pwm = ⟨true, 0, t.tim.htotalClk, 0, s.cfg.getLsbD 0⟩ ∧
        t.lt.en = true ∧ t.lt.period = t.tim.htotalClk - 1 ∧ t.lt.cnt < t.tim.htotalClk - 1 ∧
        t.dma = { busy := false, src := 0, len := 0, unit := 1, dst := .port, done := false, irq := false,
                  flight := t.dma.flight } ∧
        t.spi.en = false ∧ t.port = ⟨true, Config.cSampleClk std⟩ ∧
        t.gpio = ⟨.hiZ, .hiZ, false, .hiZ, .port⟩ ∧
        t.win = s.win ∧ t.cfg = s.cfg ∧ t.fault = s.fault ∧ t.args = s.args ∧ t.result = s.result) ∧
    (sel ≠ 3 → sel ≠ 4 → exec (.beginComposite sel) s = .next { s.stop with status := 0xFFFFFFFC#32 })

/-- R165.3, R155: every status other than 0 of BEGIN or BEGIN_COMPOSITE leaves the block Off, STATE 0 and every
interrupt disabled. -/
def Obligations.FailedBeginLeavesOff : Prop :=
  ∀ (s t : State) (sel : Nat), s.LifeInv →
    exec (.begin sel) s = .next t ∨ exec (.beginComposite sel) s = .next t → t.status ≠ 0#32 →
      t.life = .off ∧ t.stateRegister = 0#32 ∧ t.nvic.global = false ∧ (∀ q, (t.nvic.line q).en = false) ∧
        t.fb = .reset ∧ t.tim = .reset

/-- §8 of the source (95_test_vectors.md S1 and its margin vectors): `begin(320,240,Color)` under the default window,
from any state, gives STATUS 0, a buffer of 320×240 bytes and a horizontal scale of 7 on a machine with HMARGIN_CLK up
to 559, and STATUS -1 on any other. -/
def Obligations.SourceColorExampleStarts : Prop :=
  ∀ s : State, s.args.a0 = 320#32 → s.args.a1 = 240#32 → s.win = ⟨27000, 83000, 57, 70⟩ →
    ∃ t, exec (.begin 2) s = .next t ∧
      if Config.hmarginClk ≤ 559 then
        t.status = 0#32 ∧ t.life = .running ∧ t.mode = .color ∧
        t.fb.size = 76800 ∧ t.tim.xscale = 7 ∧ t.tim.yscale = 2 ∧ t.tim.flineHz = 30000 ∧ t.tim.fframeMhz = 60000
      else t = { s.stop with status := 0xFFFFFFFF#32 }

/-- R161 to R163: a WAIT ends at once with STATUS 0 if its predicate holds, else it holds the host and changes nothing
else; the predicates are functions of the mode and the line. R39: so are the vertical states, with vblank in VGA modes the
front porch, the vsync pulse or the back porch; the horizontal state is that of the lock. -/
def Obligations.WaitsEndOrHold : Prop :=
  ∀ s : State,
    (s.mode = .off → s.active = false ∧ s.vblank = true) ∧
    (s.mode = .mono ∨ s.mode = .color →
      (s.active = true ↔ s.line.toNat < s.fb.height) ∧ s.vblank = !s.active) ∧
    (∀ std, s.mode = modeOfStandard std →
      (s.active = true ↔
        Config.cActStart std ≤ s.line.toNat ∧ s.line.toNat < Config.cActStart std + Config.cHeight std) ∧
      s.vblank = !s.active) ∧
    (s.mode = .mono ∨ s.mode = .color → s.VgaInv →
      (s.verticalState = some .activePicture ↔ s.line.toNat < s.fb.height) ∧
      (s.verticalState = some .frontPorch ↔ s.fb.height ≤ s.line.toNat ∧ s.line.toNat < s.tim.vss) ∧
      (s.verticalState = some .vsyncPulse ↔ s.tim.vss ≤ s.line.toNat ∧ s.line.toNat < s.tim.vse) ∧
      (s.verticalState = some .backPorch ↔ s.tim.vse ≤ s.line.toNat ∧ s.line.toNat < s.tim.vtotal) ∧
      (s.vblank = true ↔ s.verticalState = some .frontPorch ∨ s.verticalState = some .vsyncPulse ∨
        s.verticalState = some .backPorch)) ∧
    (∀ std, s.mode = modeOfStandard std → (s.verticalState = some .activePicture ↔
      Config.cActStart std ≤ s.line.toNat ∧ s.line.toNat < Config.cActStart std + Config.cHeight std)) ∧
    (s.horizontalState = .synced ↔ s.synced = true) ∧
    (s.horizontalState = .awaitingHorizontalLock ↔ s.synced = false) ∧
    (s.vblank = true → exec .waitVblank s = .next { s with status := 0#32 }) ∧
    (s.vblank = false → exec .waitVblank s = .next { s with waiting := some .vblank }) ∧
    (s.active = true → exec .waitActive s = .next { s with status := 0#32 }) ∧
    (s.active = false → exec .waitActive s = .next { s with waiting := some .active })

/-- R162: a held WAIT looks at its predicate again after every event step, in the same step (log 18): it ends with
STATUS 0 exactly if the predicate holds then. Ending it changes nothing else of what the handler leaves, and the handler
itself touches neither the WAIT nor STATUS. -/
def Obligations.HeldWaitEndsAfterEvent : Prop :=
  ∀ (s t : State) (q : Source) (w : WaitFor), s.nextEvent = some q → s.waiting = some w → step s = .next t →
    ∃ u, exec (handlerOf q) (s.enterHandler q) = .next u ∧ u.waiting = some w ∧ u.status = s.status ∧
      if (match w with | .vblank => u.vblank | .active => u.active) = true
      then t = { u with waiting := none, status := 0#32 }
      else t = u

/-- R163: WAIT_ACTIVE while Off holds the host for ever. -/
def Obligations.WaitActiveWhileOffNeverEnds : Prop :=
  ∀ (s : State) (n : Nat), s.LifeInv → s.life = .off → s.waiting = some .active →
    Sys2Proof.core.run n s = .next s

/-! ## The modeline solver (40_modeline.md) -/

/-- R84: the worked example, for every margin it names. -/
def Obligations.SolverWorkedExample : Prop :=
  ∀ margin, margin ≤ 56 → solve margin 320 240 true ⟨27000, 83000, 57, 70⟩ =
    some ⟨7, 2, 400, 328, 376, 250, 242, 243, 2800, 2296, 336, 504, 30000, 60000, 0⟩

/-- R77 to R81: what the solver answers: nothing if the search finds nothing; and for the combination it finds, nothing
if that is below the colour scale or leaves fewer than 2 clocks for the pulse, and else the record of R72, R73, R78 and
R79; and the properties of every result. -/
def Obligations.SolverResultsAreValid : Prop :=
  ∀ (margin w h : Nat) (color : Bool) (win : Window),
    (search w h win = none → solve margin w h color win = none) ∧
    (∀ c, search w h win = some c →
      let htotal := 2 * ((5 * w + 4) / 8)
      let hb := htotal - w
      let hss := w + hb / 10
      let hse := hss + max (6 * hb / 10) 1
      let vtotal := 25 * h / 24 + c.slack
      let vb := vtotal - h
      let vss := h + max (2 * vb / 9) 1
      let burst := if color then w else ((w + 31) / 32 * 2 + 2) * 16
      let total := 2 * (htotal * c.xscale / 2)
      let start := 2 * (max (hss * c.xscale) (burst * c.xscale + margin) / 2)
      let fails : Prop := color = true ∧ c.xscale < 6 ∨ total < start + 2
      (fails → solve margin w h color win = none) ∧
      (¬fails → solve margin w h color win = some
        { xscale := c.xscale, yscale := c.yscale, htotal := htotal, hss := hss, hse := hse
          vtotal := vtotal, vss := vss, vse := vss + max (vb / 22) 1
          htotalClk := total, hsStartClk := start
          hsWidthClk := 2 * (min ((hse - hss) * c.xscale) (total - start) / 2), lockOffClk := total - start
          flineHz := 84000000 / (c.xscale * htotal)
          fframeMhz := 1000 * 84000000 / (c.xscale * htotal * vtotal * c.yscale), cycle := 0 })) ∧
    ∀ tim : Timing, 8 ≤ w → w ≤ 800 → 1 ≤ h → solve margin w h color win = some tim →
      tim.xscale ≠ 1 ∧ 2 ≤ tim.xscale ∧ tim.xscale ≤ 16 ∧ (color = true → 6 ≤ tim.xscale) ∧
      1 ≤ tim.yscale ∧ tim.yscale ≤ 8 ∧
      tim.hss < tim.hse ∧ tim.hse < tim.htotal ∧ h < tim.vss ∧ tim.vss < tim.vse ∧ tim.vse < tim.vtotal ∧
      tim.vtotal < 2 ^ 16 ∧
      win.hmin.toNat * (tim.xscale * tim.htotal) < 84000000 ∧
      84000000 < win.hmax.toNat * (tim.xscale * tim.htotal) ∧
      win.vmin.toNat * (tim.xscale * tim.htotal * tim.vtotal * tim.yscale) < 84000000 ∧
      84000000 < win.vmax.toNat * (tim.xscale * tim.htotal * tim.vtotal * tim.yscale) ∧
      2 ≤ tim.hsWidthClk ∧ tim.hsWidthClk ≤ tim.lockOffClk ∧ tim.lockOffClk + 1 < tim.htotalClk ∧
      burstPx color w * tim.xscale + margin ≤ tim.hsStartClk + 1 ∧
      tim.hsStartClk + tim.lockOffClk = tim.htotalClk

/-- R72 to R77: the search answers none exactly if no combination of the search space passes the tests of R74 and R75,
on the geometry of R72 and R73, and else the one that comes first: larger horizontal scale, then smaller slack, then
smaller vertical scale. -/
def Obligations.SolverSearchesTheWholeSpaceInOrder : Prop :=
  ∀ (w h : Nat) (win : Window),
    let inSpace := fun c : Candidate =>
      2 ≤ c.xscale ∧ c.xscale ≤ 16 ∧ c.slack ≤ 49 ∧ 1 ≤ c.yscale ∧ c.yscale ≤ 8
    let passes := fun c : Candidate =>
      let htotal := 2 * ((5 * w + 4) / 8)
      let hb := htotal - w
      let hse := w + hb / 10 + max (6 * hb / 10) 1
      let vtotal := 25 * h / 24 + c.slack
      let vb := vtotal - h
      let vse := h + max (2 * vb / 9) 1 + max (vb / 22) 1
      let L := c.xscale * htotal
      let X := L * vtotal * c.yscale
      (hse < htotal ∧ vse < vtotal ∧ vtotal < 2 ^ 16) ∧
        (win.hmin.toNat * L < 84000000 ∧ 84000000 < win.hmax.toNat * L) ∧
        (win.vmin.toNat * X < 84000000 ∧ 84000000 < win.vmax.toNat * X)
    (search w h win = none ↔ ∀ c, inSpace c → ¬passes c) ∧
    ∀ c, search w h win = some c → inSpace c ∧ passes c ∧
      ∀ d, inSpace d → passes d →
        d.xscale < c.xscale ∨ d.xscale = c.xscale ∧
          (c.slack < d.slack ∨ c.slack = d.slack ∧ c.yscale ≤ d.yscale)

/-- R82: every field of a result fits in 32 bits. -/
def Obligations.SolverResultsFitRegisters : Prop :=
  ∀ (margin w h : Nat) (color : Bool) (win : Window) (tim : Timing), 8 ≤ w → w ≤ 800 → 1 ≤ h →
    solve margin w h color win = some tim →
      ∀ v ∈ [tim.xscale, tim.yscale, tim.htotal, tim.hss, tim.hse, tim.vtotal, tim.vss, tim.vse, tim.htotalClk,
        tim.hsStartClk, tim.hsWidthClk, tim.lockOffClk, tim.flineHz, tim.fframeMhz, tim.cycle], v < 2 ^ 32

/-! ## The frame buffer and host memory (41_framebuffer.md, 20_memory.md) -/

/-- R86 to R90: the layout of a buffer in each mode; allocation succeeds exactly if the buffer fits the capacity; then it
lies in SRAM (whose extent is log 4), 4-byte aligned and zeroed, and every other byte stays. In a Mono buffer the guard
bytes are the four bytes of halfwords `wpl - 2` and `wpl - 1` of each row, and in the other modes there are none. -/
def Obligations.AllocationIsZeroedAndInSram : Prop :=
  ∀ (s : State) (mode : Mode) (w h : Nat),
    let wpl := (w + 31) / 32 * 2 + 2
    (∀ base : Addr, bufferSize mode w h = (bufferOf mode w h base).size ∧
      bufferOf .mono w h base = ⟨true, base, w, h, wpl, wpl * 16, wpl * 2 * h,
        0x22000000#32 + (base - 0x20000000#32) * 32#32, wpl * 2⟩ ∧
      bufferOf .color w h base = ⟨true, base, w, h, 0, w, w * h, 0, w⟩ ∧
      ∀ std, bufferOf (modeOfStandard std) w h base = ⟨true, base, w, h, 0, w, w * h, 0, Config.cSlotLen std⟩) ∧
    (s.allocate mode w h = none ↔ Config.fbCapacityBytes < bufferSize mode w h) ∧
    (∀ t, s.allocate mode w h = some t → mode ≠ .off →
      ∃ base : Addr, t.fb = bufferOf mode w h base ∧ t.fb.valid = true ∧ t.fb.base = base ∧
        base.toNat % 4 = 0 ∧ 0x20000000 ≤ base.toNat ∧
        base.toNat + bufferSize mode w h ≤ 0x20000000 + 98304 ∧
        (∀ x : Addr, t.byteAt x =
          if base.toNat ≤ x.toNat ∧ x.toNat < base.toNat + bufferSize mode w h then 0#8 else s.byteAt x)) ∧
    (s.mode = .mono → s.fb = bufferOf .mono w h s.fb.base → s.fb.size ≤ 98304 → ∀ a : Addr,
      (s.guardByte a = true ↔
        ∃ row k, row < h ∧ k < 4 ∧ a = s.fb.base + BitVec.ofNat 32 (row * wpl * 2 + (wpl - 2) * 2 + k))) ∧
    (s.mode ≠ .mono → ∀ a : Addr, s.guardByte a = false)

/-- R92, R46, R48: SET_PIXEL. Out of bounds (R91) it raises PIXEL and changes nothing else. In bounds it answers STATUS 0
and writes, in Mono, ARG2[0] to bit `b mod 8` of byte `base + b div 8`, with `b = y × stride + (x xor 15)`, and in the
other modes ARG2[7:0] to the byte `base + y × width + x`. Every other bit, byte and register stays, but for the units of
a transfer that the write races with (R56), which RacingUnitIsOldOrNew bounds. -/
def Obligations.SetPixelWritesOnePixel : Prop :=
  ∀ s : State, s.MemoryInv →
    let inb : Prop := s.fb.valid = true ∧ s.args.a0.toNat < s.fb.width ∧ s.args.a1.toNat < s.fb.height
    let b := s.args.a1.toNat * s.fb.stride + (s.args.a0.toNat ^^^ 15)
    let a := s.fb.base +
      BitVec.ofNat 32 (if s.mode = .mono then b / 8 else s.args.a1.toNat * s.fb.width + s.args.a0.toNat)
    (¬inb → exec .setPixel s = .next { s with fault := s.fault ||| 0b000001#6 }) ∧
    (inb → ∃ t, exec .setPixel s = .next t ∧
      (s.mode = .mono → ∀ k, k < 8 →
        (t.byteAt a).getLsbD k = if k = b % 8 then s.args.a2.getLsbD 0 else (s.byteAt a).getLsbD k) ∧
      (s.mode ≠ .mono → t.byteAt a = s.args.a2.setWidth 8) ∧
      (∀ x : Addr, x ≠ a → t.byteAt x = s.byteAt x) ∧
      t = { s with mem := t.mem, status := 0#32, races := t.races,
                   dma := { s.dma with flight := { s.dma.flight with units := t.dma.flight.units } } } ∧
      (s.dma.busy = false ∨ s.dma.flight.fromSlot = true → t.dma = s.dma ∧ t.races = s.races) ∧
      (s.dma.busy = true → s.dma.flight.fromSlot = false → t.races = s.races + 1))

/-- R93, R46, R48: GET_PIXEL. Out of bounds (R91) it raises PIXEL and changes nothing else. In bounds it writes the pixel,
zero-extended, to RESULT and 0 to STATUS, and nothing else. -/
def Obligations.GetPixelReadsThePixel : Prop :=
  ∀ s : State,
    let inb : Prop := s.fb.valid = true ∧ s.args.a0.toNat < s.fb.width ∧ s.args.a1.toNat < s.fb.height
    let b := s.args.a1.toNat * s.fb.stride + (s.args.a0.toNat ^^^ 15)
    (¬inb → exec .getPixel s = .next { s with fault := s.fault ||| 0b000001#6 }) ∧
    (inb → ∃ v : Word, exec .getPixel s = .next { s with result := v, status := 0#32 } ∧
      (s.mode = .mono →
        v.toNat = ((s.byteAt (s.fb.base + BitVec.ofNat 32 (b / 8))).getLsbD (b % 8)).toNat) ∧
      (s.mode ≠ .mono → v.toNat =
        (s.byteAt (s.fb.base + BitVec.ofNat 32 (s.args.a1.toNat * s.fb.width + s.args.a0.toNat))).toNat))

/-- R94: GET_PIXEL after SET_PIXEL of the same pixel gives the value set: its bit 0 in Mono, its low byte elsewhere. -/
def Obligations.PixelRoundTrip : Prop :=
  ∀ s t : State, s.MemoryInv → s.fb.valid = true →
    s.args.a0.toNat < s.fb.width → s.args.a1.toNat < s.fb.height → exec .setPixel s = .next t →
    ∃ u, exec .getPixel t = .next u ∧ u.status = 0#32 ∧
      (s.mode = .mono → u.result = s.args.a2 &&& 1#32) ∧ (s.mode ≠ .mono → u.result = s.args.a2 &&& 0xFF#32)

/-- R94, R90, R92: in a buffer as BEGIN lays it out, SET_PIXEL changes no other pixel, and in Mono no guard word. -/
def Obligations.SetPixelTouchesNoOtherPixel : Prop :=
  ∀ (s t : State) (w h : Nat), s.MemoryInv → s.mode ≠ .off →
    s.fb = bufferOf s.mode w h s.fb.base → s.fb.size ≤ 98304 →
    s.args.a0.toNat < w → s.args.a1.toNat < h → exec .setPixel s = .next t →
      (∀ x y, x < w → y < h → (x ≠ s.args.a0.toNat ∨ y ≠ s.args.a1.toNat) →
        t.pixelValue x y = s.pixelValue x y) ∧
      (s.mode = .mono → s.guardByte (s.pixelAddr s.args.a0.toNat s.args.a1.toNat) = false ∧
        ∀ a : Addr, s.guardByte a = true → t.byteAt a = s.byteAt a)

/-- R44, R45: `MemRead` is the little-endian sum of its bytes, at addresses that wrap modulo 2^32; after `MemWrite` the
byte at `a + k` is byte `k` of the value, and every other byte stays. -/
def Obligations.MemoryIsLittleEndian : Prop :=
  ∀ (m : Memory) (a : Addr) (n v : Nat), m.wf → n ≤ 4 →
    m.load a n =
        ((List.range n).map fun k => (m.read (a + BitVec.ofNat 32 k).toNat).toNat * 2 ^ (8 * k)).sum ∧
      (m.store a n v).load a n = v % 256 ^ n ∧
    (∀ k, k < n → ((m.store a n v).read (a + BitVec.ofNat 32 k).toNat).toNat = v / 256 ^ k % 256) ∧
    ∀ x : Addr, (∀ k, k < n → x ≠ a + BitVec.ofNat 32 k) → (m.store a n v).read x.toNat = m.read x.toNat

/-- R95, R44, R51, R168: at an address of SRAM outside the register window, an aligned host read returns the little-endian
value of its bytes; an aligned host write is performed, and raises GUARD exactly if it touches a guard-word byte (R90);
nothing else changes but the units of a transfer that the write races with (R56, bounded by RacingUnitIsOldOrNew), and
none if it sends a composite slot (R138). A misaligned access is refused. That
all of SRAM is such memory, in the buffer or not, is log 9 and log 6; the extent of SRAM is log 4. -/
def Obligations.HostWriteIsPerformedWithGuard : Prop :=
  ∀ (s : State) (a : Addr) (w : Width) (v : Word), s.MemoryInv → inSram a = true →
    256 ≤ (a - Config.blockBase).toNat →
    let guard := fun x : Addr => s.mode = .mono ∧ s.fb.valid = true ∧ (x - s.fb.base).toNat < s.fb.size ∧
      (s.fb.wpl - 2) * 2 ≤ (x - s.fb.base).toNat % (s.fb.wpl * 2)
    let touches : Prop := ∃ k, k < w.bytes ∧ guard (a + BitVec.ofNat 32 k)
    (a.toNat % w.bytes = 0 →
      (∃ r : Word, hostAccess (.busRead a w) s = .next { s with busData := r } ∧
        r.toNat = s.mem.load a w.bytes) ∧
      ∃ t, hostAccess (.busWrite a w v) s = .next t ∧ t.mem.load a w.bytes = v.toNat % 256 ^ w.bytes ∧
        (∀ x : Addr, w.bytes ≤ (x - a).toNat → t.byteAt x = s.byteAt x) ∧
        (touches → t.fault = s.fault ||| 0b000010#6) ∧ (¬touches → t.fault = s.fault) ∧
        t = { s with mem := t.mem, fault := t.fault, races := t.races,
                     dma := { s.dma with flight := { s.dma.flight with units := t.dma.flight.units } } } ∧
        (s.dma.busy = false ∨ s.dma.flight.fromSlot = true → t.dma = s.dma ∧ t.races = s.races) ∧
        (s.dma.busy = true → s.dma.flight.fromSlot = false → t.races = s.races + 1)) ∧
    (a.toNat % w.bytes ≠ 0 → hostAccess (.busRead a w) s = .refused .misalignedAccess ∧
      hostAccess (.busWrite a w v) s = .refused .misalignedAccess)

/-- R50: outside the register window, a 32-bit host write to the alias word of bit `j` of an SRAM byte sets that bit to
bit 0 of the value and changes no other bit; a read returns it. That the write raises GUARD exactly if the byte is a
guard-word byte (R90), and that it races with a transfer as any host write does (R56), is the model's choice (log 7). The
extent of SRAM, in the buffer or not, is log 4 and log 9. -/
def Obligations.AliasWordIsOneBit : Prop :=
  ∀ (s : State) (a : Addr) (j : Nat) (v : Word), s.MemoryInv → inSram a = true → j < 8 →
    let x := 0x22000000#32 + (a - 0x20000000#32) * 32#32 + BitVec.ofNat 32 (4 * j)
    let guard : Prop := s.mode = .mono ∧ s.fb.valid = true ∧ (a - s.fb.base).toNat < s.fb.size ∧
      (s.fb.wpl - 2) * 2 ≤ (a - s.fb.base).toNat % (s.fb.wpl * 2)
    256 ≤ (x - Config.blockBase).toNat →
    (∃ t, hostAccess (.busWrite x .word v) s = .next t ∧
      (∀ k, k < 8 → (t.byteAt a).getLsbD k = if k = j then v.getLsbD 0 else (s.byteAt a).getLsbD k) ∧
      (∀ y : Addr, y ≠ a → t.byteAt y = s.byteAt y) ∧
      (guard → t.fault = s.fault ||| 0b000010#6) ∧ (¬guard → t.fault = s.fault) ∧
      t = { s with mem := t.mem, fault := t.fault, races := t.races,
                   dma := { s.dma with flight := { s.dma.flight with units := t.dma.flight.units } } } ∧
      (s.dma.busy = false ∨ s.dma.flight.fromSlot = true → t.dma = s.dma ∧ t.races = s.races) ∧
      (s.dma.busy = true → s.dma.flight.fromSlot = false → t.races = s.races + 1)) ∧
    ∃ r : Word, hostAccess (.busRead x .word) s = .next { s with busData := r } ∧
      r.toNat = ((s.byteAt a).getLsbD j).toNat

/-- R57: the handlers and the DMA never write host memory: a step that changes it is an access of the host. -/
def Obligations.OnlyTheHostWritesMemory : Prop :=
  ∀ s t : State, step s = .next t → t.mem ≠ s.mem →
    ∃ a rest, s.inbox = .access a :: rest ∧ s.hostFree = true ∧ hostAccess a { s with inbox := rest } = .next t

/-- Host memory keeps its canonical form, which is the model's own (log 3), under every step. -/
def Obligations.MemoryStaysCanonical : Prop :=
  ∀ s t : State, s.MemoryInv → step s = .next t → t.MemoryInv

/-! ## The sequencer (42_sequencer.md) -/

/-- R99 to R105: the peripheral set after arm, for each mode; the draw `d` of the line timer is below its period. -/
def Obligations.ArmConfiguresThePeripherals : Prop :=
  ∀ (s : State) (mode : Mode), mode ≠ .off →
    let t := s.arm mode
    let vga : Bool := mode == .mono || mode == .color
    t.nvic = ⟨⟨true, false, 0⟩, ⟨vga, false, 1⟩, ⟨mode == .mono, false, 2⟩, s.nvic.global⟩ ∧ t.dmaFirst = true ∧
      t.pwm = ⟨true, 0, s.tim.htotalClk, if vga then s.tim.hsWidthClk else 0, s.cfg.getLsbD 0⟩ ∧
      t.lt.en = true ∧ t.lt.period = s.tim.htotalClk - 1 ∧
      (2 ≤ s.tim.htotalClk → t.lt.cnt < s.tim.htotalClk - 1) ∧
      t.gpio.hsync = (if vga then .pwm else .hiZ) ∧ t.gpio.vsync = (if vga then .out else .hiZ) ∧
      t.gpio.vlevel = (vga && s.cfg.getLsbD 1) ∧
      t.gpio.data = (if mode = .mono then .gpioLow else .hiZ) ∧ t.gpio.port = (if mode = .mono then .hiZ else .port) ∧
      t.dma.busy = false ∧ t.dma.done = false ∧ t.dma.unit = (if mode = .mono then 2 else 1) ∧
      t.dma.dst = (if mode = .mono then .spi else .port) ∧ t.dma.irq = (mode == .mono) ∧
      t.dma.src = (if vga then s.fb.base else 0) ∧
      (mode = .mono → t.spi = ⟨true, s.tim.xscale, 16⟩ ∧ t.port.en = false) ∧
      (mode = .color → t.port = ⟨true, s.tim.xscale⟩ ∧ t.spi.en = false) ∧
      (∀ std, mode = modeOfStandard std → t.port = ⟨true, Config.cSampleClk std⟩ ∧ t.spi.en = false ∧
        t.cslot0 = List.replicate (Config.cSlotLen std) 0#8 ∧ t.cslot1 = List.replicate (Config.cSlotLen std) 0#8) ∧
      (vga = true → t.cslot0 = s.cslot0 ∧ t.cslot1 = s.cslot1) ∧
      t.line = 0 ∧ t.sub = 0 ∧ t.phase = 0 ∧ t.synced = false ∧ t.ldpend = false ∧ t.vsync = false ∧
      t.vpol = s.cfg.getLsbD 1 ∧ t.frame = 0 ∧ t.armed = vga ∧ t.sleep = false ∧
      t.mem = s.mem ∧ t.tim = s.tim ∧ t.fb = s.fb ∧ t.fault = s.fault

/-- R106: disarm is idempotent, turns everything off, and puts every pin at high impedance. -/
def Obligations.DisarmTurnsEverythingOff : Prop :=
  ∀ s : State, s.disarm.disarm = s.disarm ∧ s.disarm.nvic.global = false ∧
    (∀ q, s.disarm.nvic.line q = ⟨false, false, 3⟩) ∧
    s.disarm.dma = ⟨false, 0, 0, 1, .none, false, false, .reset⟩ ∧
    s.disarm.pwm = ⟨false, 0, 0, 0, s.pwm.pol⟩ ∧ s.disarm.lt = ⟨false, 0, 0⟩ ∧ s.disarm.spi.en = false ∧
    s.disarm.port.en = false ∧ s.disarm.gpio = ⟨.hiZ, .hiZ, false, .hiZ, .hiZ⟩ ∧ s.disarm.dmaFirst = false ∧
    s.disarm.sleep = false

/-! ## The scanline engine (43_scanline_vga.md) -/

/-- R108 to R111, R171: in a tick each enabled timer counts modulo its period, and raises its event exactly at its wrap;
the DMA raises its event where its transfer completes with the completion interrupt on. A timer that is off stays as it
is, so that this covers the ticks while Off. An event raised by an enabled
source is pending afterwards, ends the sleep, and raises OVERRUN exactly if the source was pending before; one of a
disabled source is lost. Nothing else changes but the DMA channel and the record of a completed transfer, of which
TransferCompletesAfterItsTime speaks. -/
def Obligations.TimersCountAndRaise : Prop :=
  ∀ s : State, (s.pwm.en = true → 0 < s.pwm.period) → (s.lt.en = true → 0 < s.lt.period) →
    let t := s.tick
    let raised : Source → Prop := fun q => match q with
      | .hc => s.pwm.en = true ∧ t.pwm.cnt = 0
      | .lt => s.lt.en = true ∧ t.lt.cnt = 0
      | .dma => s.dma.busy = true ∧ t.dma.busy = false ∧ s.dma.irq = true
    let overruns : Prop := ∃ q, raised q ∧ (s.nvic.line q).en = true ∧ (s.nvic.line q).pend = true
    t.pwm = { s.pwm with cnt := if s.pwm.en then (s.pwm.cnt + 1) % s.pwm.period else s.pwm.cnt } ∧
    t.lt = { s.lt with cnt := if s.lt.en then (s.lt.cnt + 1) % s.lt.period else s.lt.cnt } ∧
    (∀ q, t.nvic.line q = { s.nvic.line q with pend := (t.nvic.line q).pend } ∧
      ((t.nvic.line q).pend = true ↔ (s.nvic.line q).pend = true ∨ (s.nvic.line q).en = true ∧ raised q)) ∧
    t.nvic.global = s.nvic.global ∧
    (t.sleep = true ↔ s.sleep = true ∧ ∀ q, raised q → (s.nvic.line q).en = false) ∧
    (overruns → t.fault = s.fault ||| 0b000100#6) ∧ (¬overruns → t.fault = s.fault) ∧
    t = { s with
      pwm := t.pwm, lt := t.lt, dma := t.dma, nvic := t.nvic, sleep := t.sleep, fault := t.fault
      lastSent := t.lastSent }

/-- R109, R118: the sync pins: hsync is `(cnt < width) xor pol` while the PWM drives it, vsync its output level while
it is an output, and neither is driven otherwise. -/
def Obligations.SyncPinLevels : Prop :=
  ∀ s : State,
    (s.gpio.hsync = .pwm → s.hsyncPin = .driven (xor (decide (s.pwm.cnt < s.pwm.width)) s.pwm.pol)) ∧
    (s.gpio.hsync = .hiZ → s.hsyncPin = .hiZ) ∧
    (s.gpio.vsync = .out → s.vsyncPin = .driven s.gpio.vlevel) ∧ (s.gpio.vsync = .hiZ → s.vsyncPin = .hiZ)

/-- R114: the lock step, in every mode: where the sample is `E` or one past it modulo the period, the line timer takes
the PWM's period and the block is synced; there is no other effect. -/
def Obligations.LockStepLocksInItsWindow : Prop :=
  ∀ s : State, s.synced = false → 0 < s.pwm.period →
    let r : Int := ((s.pwm.cnt : Int) - s.tim.lockOffClk) % s.pwm.period
    (r = 0 ∨ r = 1 → exec .evLt s = .next { s with lt := { s.lt with period := s.pwm.period }, synced := true }) ∧
    (¬(r = 0 ∨ r = 1) → exec .evLt s = .next s)

/-- R115: between two LT events before the lock, `Ptot - 1` ticks apart, the sample steps back by one; after the lock,
`Ptot` ticks apart, it stays. Stepping back by one from any first sample `s₀`, the lock window `{E, E + 1}` is reached
after exactly `(s₀ - (E + 1)) mod Ptot` events, or none if `s₀ = E`: never more than `Ptot - 1` events. (That EV_LT locks
there is LockStepLocksInItsWindow.) -/
def Obligations.SampleWalkReachesTheLockWindow : Prop :=
  (∀ (s : State) (P : Nat), 2 ≤ P → s.pwm.en = true → s.lt.en = true → s.pwm.period = P → s.pwm.cnt < P →
    s.lt.cnt = 0 →
    (s.lt.period = P - 1 →
      (State.tick^[P - 1] s).lt.cnt = 0 ∧ (State.tick^[P - 1] s).pwm.cnt = (s.pwm.cnt + (P - 1)) % P ∧
        ∀ k, 0 < k → k < P - 1 → (State.tick^[k] s).lt.cnt ≠ 0) ∧
    (s.lt.period = P →
      (State.tick^[P] s).lt.cnt = 0 ∧ (State.tick^[P] s).pwm.cnt = s.pwm.cnt ∧
        ∀ k, 0 < k → k < P → (State.tick^[k] s).lt.cnt ≠ 0)) ∧
  ∀ P E s0 : Nat, E + 1 < P → s0 < P →
    let n := if s0 = E then 0 else (s0 + P - (E + 1)) % P
    n ≤ P - 1 ∧ inLockWindow ((s0 + P - n) % P) E P = true ∧
      ∀ m, m < n → inLockWindow ((s0 + P - m) % P) E P = false

/-- R116 to R118: one VGA line: the transfer if the display is armed, RELOAD if one is in flight, the vertical sync of
the line, the position, the pending line double, the end of the picture and the end of the frame. Unit `k` of the
transfer is the `unit` bytes at `src + k × unit` (R121, R122), as they are at the start (log 12), and the record of the
transfer has the frame, line and repeat of before the advance (log 21). Its latency is a draw of the counter `draws`,
which no host bus access moves (R186, log 11). At a repeat that is not the last the line stays, as R116 has it (log 32).
Memory and every other register stay. -/
def Obligations.VgaLineIsOnePhysicalLine : Prop :=
  ∀ s : State, s.mode = .mono ∨ s.mode = .color → s.synced = true → s.VgaInv →
    let last : Prop := s.sub.toNat + 1 = s.tim.yscale
    let wrap : Prop := last ∧ s.line.toNat + 1 = s.tim.vtotal
    ∃ t, exec .evLt s = .next t ∧
      (s.armed = true →
        t.dma.busy = true ∧ t.dma.done = false ∧ t.dma.len = s.fb.xfer ∧ t.dma.flight.origin = s.dma.src ∧
        t.dma.flight.age = 0 ∧ t.dma.flight.lat = drawLat s.draws ∧ t.dma.flight.lat ≤ Config.dmaLatMax ∧
        t.draws = s.draws + 1 ∧ t.dma.flight.fromSlot = false ∧
        t.dma.flight.frame = s.frame ∧ t.dma.flight.line = s.line ∧ t.dma.flight.sub = s.sub ∧
        t.dma.flight.units.length = s.fb.xfer / s.dma.unit ∧
        (∀ k, k < s.fb.xfer / s.dma.unit → t.dma.flight.units[k]? =
          some (BitVec.ofNat 16 (s.mem.load (s.dma.src + BitVec.ofNat 32 (k * s.dma.unit)) s.dma.unit))) ∧
        t.gpio.data = (if s.mode = .mono then .spi else s.gpio.data) ∧
        t.fault = if s.dma.busy then s.fault ||| 0b001000#6 else s.fault) ∧
      (s.armed = false →
        t.dma = { s.dma with src := t.dma.src } ∧ t.gpio.data = s.gpio.data ∧ t.fault = s.fault ∧
        t.draws = s.draws) ∧
      (t.vsync = true ↔ s.tim.vss ≤ s.line.toNat ∧ s.line.toNat < s.tim.vse) ∧
      t.gpio.vlevel = xor t.vsync s.vpol ∧
      (last → t.sub = 0 ∧ t.ldpend = false ∧ (¬wrap → t.line.toNat = s.line.toNat + 1)) ∧
      (¬last → t.sub.toNat = s.sub.toNat + 1 ∧ t.line = s.line ∧ t.ldpend = s.armed) ∧
      (wrap → t.line = 0 ∧ t.dma.src = s.fb.base ∧ t.armed = true ∧ t.frame = s.frame + 1) ∧
      (¬wrap → t.dma.src = s.dma.src ∧ t.frame = s.frame ∧
        t.armed = (s.armed && decide (t.line.toNat ≠ s.fb.height))) ∧
      t = { s with
        dma := { s.dma with
          src := t.dma.src, len := t.dma.len, busy := t.dma.busy, done := t.dma.done, flight := t.dma.flight }
        fault := t.fault, gpio := { s.gpio with data := t.gpio.data, vlevel := t.gpio.vlevel }
        draws := t.draws, vsync := t.vsync, sub := t.sub, line := t.line, ldpend := t.ldpend, armed := t.armed
        frame := t.frame }

/-- R120: from a frame start, `vtotal × yscale` LT executions are one frame: after `k` of them the line is
`k div yscale`, the repeat `k mod yscale`, and the display is armed exactly in the first `h` lines; the last one wraps
to the start of the next frame. Row 7 of R129's trace counts the line otherwise (log 32). -/
def Obligations.FrameIsVtotalTimesYscaleLines : Prop :=
  ∀ s : State, s.mode = .mono ∨ s.mode = .color → s.synced = true → s.VgaInv → 1 ≤ s.fb.height →
    s.line = 0 → s.sub = 0 → s.armed = true →
    (∀ k, k < s.tim.vtotal * s.tim.yscale →
      let t := State.vgaLine^[k] s
      t.line.toNat = k / s.tim.yscale ∧ t.sub.toNat = k % s.tim.yscale ∧ t.frame = s.frame ∧
        (t.armed = true ↔ k / s.tim.yscale < s.fb.height) ∧ exec .evLt t = .next (State.vgaLine^[k + 1] s)) ∧
    let u := State.vgaLine^[s.tim.vtotal * s.tim.yscale] s
    u.line = 0 ∧ u.sub = 0 ∧ u.armed = true ∧ u.frame = s.frame + 1 ∧ u.dma.src = s.fb.base

/-- R116, R119, R123, R124: the LT event, the completion and the HC event of one armed line: before the last repeat
the source address is back where it was, so that the same line goes out again; at the last repeat it has moved one line
on. No fault is raised. That the line number moves at the last repeat only is the pseudocode of R116 and R119; row 7 of
R129's trace has it advance at a repeat that is not the last (log 32). -/
def Obligations.LineDoublingResendsTheLine : Prop :=
  ∀ s : State, s.mode = .mono ∨ s.mode = .color → s.synced = true → s.VgaInv → s.armed = true →
    s.dma.busy = false →
    ∃ t u, exec .evLt s = .next t ∧ exec .evHc t.dmaComplete = .next u ∧ u.fault = s.fault ∧ u.dma.busy = false ∧
      u.dma.done = true ∧ u.ldpend = false ∧ u.sleep = true ∧
      (s.sub.toNat + 1 < s.tim.yscale → u.dma.src = s.dma.src ∧ u.line = s.line) ∧
      (s.sub.toNat + 1 = s.tim.yscale → s.line.toNat + 1 ≠ s.tim.vtotal →
        u.dma.src = s.dma.src + BitVec.ofNat 32 s.fb.xfer ∧ u.line.toNat = s.line.toNat + 1)

/-- R124, R126: EV_HC: a pending line double moves the source address back by one line, with REWIND if the channel is
busy; then the CPU sleeps. Nothing else changes. -/
def Obligations.HorizontalCompareRewindsAndSleeps : Prop :=
  ∀ s : State,
    (s.ldpend = true → exec .evHc s = .next
      { s with
        dma := { s.dma with src := s.dma.src - BitVec.ofNat 32 s.fb.xfer }
        fault := if s.dma.busy then s.fault ||| 0b010000#6 else s.fault
        ldpend := false
        sleep := true }) ∧
    (s.ldpend = false → exec .evHc s = .next { s with sleep := true })

/-- R125: EV_DMAC clears the completion flag and releases the data pin, driven low. Nothing else changes. -/
def Obligations.DmaCompletionHandlerReleasesThePin : Prop :=
  ∀ s : State, exec .evDmac s =
    .next { s with dma := { s.dma with done := false }, gpio := { s.gpio with data := .gpioLow } }

/-- R121, R123: a transfer completes in the tick that is `DMA_LAT + (len div unit) × U` ticks from its start, with
`U = 16 × div` on the SPI and `U = div` on the port: the source address advances by the length, done is set, and the
DMA event is recorded if the completion interrupt is on and enabled. Before that tick it only gets older. With no
transfer in flight a tick leaves the channel alone. (That a transfer of no time completes in the tick after its start is
log 13; what the record names is log 21.) -/
def Obligations.TransferCompletesAfterItsTime : Prop :=
  ∀ s : State,
    let t := s.tick
    let older := { s.dma.flight with age := s.dma.flight.age + 1 }
    (s.dma.busy = false → t.dma = s.dma ∧ t.lastSent = s.lastSent ∧ t.nvic.dma = s.nvic.dma) ∧
    (s.dma.busy = true → s.spi.bits = 16 →
      let U := match s.dma.dst with | .spi => 16 * s.spi.div | .port => s.port.div | .none => 0
      let total := s.dma.flight.lat + s.dma.len / s.dma.unit * U
      (total ≤ s.dma.flight.age + 1 →
        t.dma = { s.dma with
          src := s.dma.src + BitVec.ofNat 32 s.dma.len, busy := false, done := true, flight := older } ∧
        t.lastSent = some ⟨s.dma.flight.frame, s.dma.flight.line, s.dma.flight.sub, s.dma.flight.units⟩ ∧
        (t.nvic.dma.pend = true ↔
          s.nvic.dma.pend = true ∨ s.nvic.dma.en = true ∧ s.dma.irq = true)) ∧
      (s.dma.flight.age + 1 < total →
        t.dma = { s.dma with flight := older } ∧ t.lastSent = s.lastSent ∧ t.nvic.dma = s.nvic.dma))

/-- R121, R122, R47: what a transfer in flight puts out. With the data pin at the SPI, bit `15 - b` of unit `k` (in Mono,
pixel `16 k + b` of the line) is on it from tick `DMA_LAT + (16 k + b) × div` after the start, for `div` ticks. With the
pins at the port, byte `k` is on them from tick `DMA_LAT + k × div`, for `div` ticks. A data pin released to general I/O
is low, and a pin routed nowhere is not driven. Each unit has one value: it is the same in every state of the transfer,
on the pins as in the record at the completion, whatever host write races with it (R56, R131; log 29), and with no host
move to come it is the value the record holds. -/
def Obligations.TransferUnitsAppearOnThePins : Prop :=
  ∀ s : State,
    (s.gpio.data = .gpioLow → s.dataPin = .driven false) ∧ (s.gpio.data = .hiZ → s.dataPin = .hiZ) ∧
    (s.gpio.port = .hiZ → s.portByte = none) ∧
    (s.dma.busy = true →
      s.sentUnits.length = s.dma.flight.units.length ∧ (s.inbox = [] → s.sentUnits = s.dma.flight.units) ∧
      ∀ t, step s = .next t →
        (t.dma.busy = true → t.draws = s.draws → t.sentUnits = s.sentUnits) ∧
        (t.dma.busy = false → t.dma.done = true →
          t.lastSent = some ⟨s.dma.flight.frame, s.dma.flight.line, s.dma.flight.sub, s.sentUnits⟩)) ∧
    (s.dma.busy = true → ∀ (k : Nat) (u : Halfword), s.sentUnits[k]? = some u →
      (s.dma.dst = .spi → s.gpio.data = .spi → s.spi.bits = 16 → ∀ b, b < 16 →
        s.dma.flight.lat + (16 * k + b) * s.spi.div ≤ s.dma.flight.age →
        s.dma.flight.age < s.dma.flight.lat + (16 * k + b + 1) * s.spi.div →
        s.dataPin = .driven (u.getLsbD (15 - b))) ∧
      (s.dma.dst = .port → s.gpio.port = .port →
        s.dma.flight.lat + k * s.port.div ≤ s.dma.flight.age →
        s.dma.flight.age < s.dma.flight.lat + (k + 1) * s.port.div →
        s.portByte = some (u.setWidth 8)))

/-- R56, R92, R138: what a host write does to the transfer in flight, for SET_PIXEL, for a host bus write to SRAM or to
its alias outside the register window, and for the store they share. Each unit of a transfer that reads host memory keeps
its value or takes the one its bytes have after the write, and a unit none of whose bytes are stored to keeps its value;
a transfer that sends a composite slot keeps all its units. Nothing else of the DMA channel changes. (That the choice is
made at each write, for each unit it touches, is log 12.) -/
def Obligations.RacingUnitIsOldOrNew : Prop :=
  ∀ s : State, s.dma.busy = true → s.dma.unit = 1 ∨ s.dma.unit = 2 →
    let raced : State → (Addr → Prop) → Prop := fun t stored =>
      let us := t.dma.flight.units
      let addr := fun k : Nat => s.dma.flight.origin + BitVec.ofNat 32 (k * s.dma.unit)
      t.dma = { s.dma with flight := { s.dma.flight with units := us } } ∧
      (s.dma.flight.fromSlot = true → us = s.dma.flight.units) ∧
      us.length = s.dma.flight.units.length ∧
      ∀ k, k < us.length →
        (us[k]? = s.dma.flight.units[k]? ∨ us[k]? = some (BitVec.ofNat 16 (t.mem.load (addr k) s.dma.unit))) ∧
        ((∀ i, i < s.dma.unit → ¬stored (addr k + BitVec.ofNat 32 i)) → us[k]? = s.dma.flight.units[k]?)
    (∀ t, exec .setPixel s = .next t →
      raced t fun x => x = s.pixelAddr s.args.a0.toNat s.args.a1.toNat) ∧
    (∀ (a : Addr) (w : Width) (v : Word) (t : State), 256 ≤ (a - Config.blockBase).toNat →
      hostAccess (.busWrite a w v) s = .next t →
        raced t fun x => if inAlias a = true then x = aliasByte a else (x - a).toNat < w.bytes) ∧
    ∀ (b : Addr) (n v : Nat), 0 < n → n ≤ 4 → raced (s.store b n v) fun x => (x - b).toNat < n

/-! ## The composite encoder (44_composite.md) -/

/-- R144: the chroma phase returns to its first value after exactly `c / gcd(c, C_POFF)` lines, and at no earlier
positive count. -/
def Obligations.ChromaPhaseIsPeriodic : Prop :=
  ∀ (p : CompositeParams) (phase : Nat), 0 < p.cycle → phase < p.cycle →
    ∀ k, (nextPhase p)^[k] phase = phase ↔ p.cycle / Nat.gcd p.cycle p.poff ∣ k

/-- R139, R146: the row of pixel `x` is `(phase + C_PFIXOFF + x × C_PSTRIDE) mod C_CYCLE`: one wrapping subtraction
per sample is enough. -/
def Obligations.RowWalkIsModular : Prop :=
  ∀ (p : CompositeParams) (phase n x : Nat), 1 ≤ p.pstride → p.pstride ≤ p.cycle → x < n →
    (rowWalk p (firstRow p phase) n)[x]? = some ((phase + p.pfixoff + x * p.pstride) % p.cycle)

/-- R135 to R140, R142, R143: one composite line. The transfer of the other slot starts, with RELOAD if one is in
flight. The slot of the line's parity gets the preamble at the phase, then the body: the pixels' samples on an active
line, the pattern of the line's class on another, or its old bytes outside the band; its tail stays. The phase and the
line advance, and the frame counts at the wrap. Memory and every other register stay. The record of the transfer has the
frame, line and repeat of before the advance (log 21), its latency is a draw of the counter `draws` (R186, log 11), and
DMA_SRC reads the tag of the slot sent (log 14). -/
def Obligations.CompositeLineFillsItsSlot : Prop :=
  ∀ (s : State) (std : Standard), s.mode = modeOfStandard std → s.synced = true → s.CompositeInv std →
    let n := s.line.toNat
    let k := n % 2
    let pre := Config.cPreLen std
    let phase := s.phase.toNat
    let active : Prop := Config.cActStart std ≤ n ∧ n < Config.cActStart std + Config.cHeight std
    ∃ t, exec .evLt s = .next t ∧
      (t.slot k).length = Config.cSlotLen std ∧ t.slot ((n + 1) % 2) = s.slot ((n + 1) % 2) ∧
      (∀ i, i < pre → (t.slot k)[i]? =
        some (Config.cTemplate std (if Config.cNvar std = 2 then n % 2 else 0) (phase + i))) ∧
      (∀ x, x < 320 →
        (active → (t.slot k)[pre + x]? = some (Config.pt std
          (s.byteAt (s.fb.base + BitVec.ofNat 32 ((n - Config.cActStart std) * 320 + x)))
          ((phase + Config.cPfixoff std + x * Config.cPstride std) % Config.cCycle std))) ∧
        (¬active → Config.cClass std n = .blank → (t.slot k)[pre + x]? = some (Config.cBlankpat std x)) ∧
        (¬active → Config.cClass std n = .white → (t.slot k)[pre + x]? = some (Config.cWhitepat std x)) ∧
        (¬active → Config.cClass std n = .outside → (t.slot k)[pre + x]? = (s.slot k)[pre + x]?)) ∧
      (∀ i, pre + 320 ≤ i → (t.slot k)[i]? = (s.slot k)[i]?) ∧
      t.dma.busy = true ∧ t.dma.done = false ∧ t.dma.src = BitVec.ofNat 32 ((n + 1) % 2) ∧
      t.dma.len = Config.cSlotLen std ∧
      t.dma.flight.units = (s.slot ((n + 1) % 2)).map (fun b => b.setWidth 16) ∧
      t.dma.flight.age = 0 ∧ t.dma.flight.lat = drawLat s.draws ∧ t.dma.flight.lat ≤ Config.dmaLatMax ∧
      t.draws = s.draws + 1 ∧ t.dma.flight.fromSlot = true ∧
      t.dma.flight.origin = BitVec.ofNat 32 ((n + 1) % 2) ∧ t.register 0x44 = BitVec.ofNat 32 ((n + 1) % 2) ∧
      t.dma.flight.frame = s.frame ∧ t.dma.flight.line = s.line ∧ t.dma.flight.sub = s.sub ∧
      t.fault = (if s.dma.busy then s.fault ||| 0b001000#6 else s.fault) ∧
      t.phase.toNat = (phase + Config.cPoff std) % Config.cCycle std ∧
      (n + 1 = Config.cTotal std → t.line = 0 ∧ t.frame = s.frame + 1) ∧
      (n + 1 ≠ Config.cTotal std → t.line.toNat = n + 1 ∧ t.frame = s.frame) ∧
      t = { s with
        cslot0 := t.cslot0, cslot1 := t.cslot1, fault := t.fault, draws := t.draws, phase := t.phase
        line := t.line, frame := t.frame
        dma := { s.dma with
          src := t.dma.src, len := t.dma.len, busy := t.dma.busy, done := t.dma.done, flight := t.dma.flight } }

/-- R9, R147: the constraints of the tables hold of the machine's parameters, by construction (log 10). -/
def Obligations.ParametersMeetTheirConstraints : Prop :=
  76800 ≤ Config.fbCapacityBytes ∧ Config.fbCapacityBytes ≤ 98304 ∧ Config.blockBase.toNat % 256 = 0 ∧
    ∀ std, Config.cPreLen std + 320 ≤ Config.cSlotLen std ∧ Config.cLockOffClk std + 1 < Config.cHtotalClk std ∧
      (Config.cNvar std = 1 ∨ Config.cNvar std = 2) ∧ Config.cPfixoff std < Config.cCycle std ∧
      1 ≤ Config.cPstride std ∧ Config.cPstride std ≤ Config.cCycle std ∧ Config.cPoff std < Config.cCycle std ∧
      Config.cActStart std + Config.cHeight std ≤ Config.cTotal std ∧ Config.cTotal std % 2 = 0 ∧
      Config.dmaLatMax + Config.cSlotLen std * Config.cSampleClk std ≤ Config.cHtotalClk std

/-! ## The invariants of the whole machine -/

/-- R21, R28, R29, R101, R114, R165: Off is Off with nothing left of a mode; Running has its buffer, its interrupts and its
timers, each with its count below its period, the PWM's period the line's, and the line timer's the line's once locked
and one less before; every step keeps it. -/
def Obligations.LifecycleInvariantIsKept : Prop :=
  ∀ s t : State, s.LifeInv → step s = .next t → t.LifeInv

/-- R22, R24, R25, R138: in a VGA mode the timing record stays valid, the line stays below `vtotal` and the repeat below
`yscale`; in a composite mode the constants, the line, the phase and the slots stay in range, ARMED, VSYNC and LDPEND
stay 0, and a transfer in flight sends a slot with tag 0 or 1, so that DMA_SRC reads 0 or 1 (between a completion and the
next transfer too: log 14); every step keeps it. -/
def Obligations.RasterInvariantIsKept : Prop :=
  (∀ s t : State, s.LifeInv → s.RasterInv → step s = .next t → t.RasterInv) ∧
    ∀ s : State, s.RasterInv → s.mode = .ntsc ∨ s.mode = .pal → s.register 0x44 = 0#32 ∨ s.register 0x44 = 1#32
end

