-- ==== Sys2Proof/Laws/State.lean ====
section
/-! SUPPORT. One lemma per field per record update: what each update of the state leaves as it was, and the values
the short ones write. All true by rfl. -/

namespace Sys2Proof.Machine

@[simp] theorem State.setStatus_status (s : State) (c : Word) : (s.setStatus c).status = c := rfl
@[simp] theorem State.enterHandler_nvic (s : State) (q : Source) : (s.enterHandler q).nvic = s.nvic.setPend q false := rfl
@[simp] theorem State.enterHandler_sleep (s : State) (q : Source) : (s.enterHandler q).sleep = false := rfl
@[simp] theorem State.release_fb (s : State) : s.release.fb = .reset := rfl
@[simp] theorem State.startMode_mode (s : State) (m : Mode) : (s.startMode m).mode = m := rfl
@[simp] theorem State.startMode_life (s : State) (m : Mode) : (s.startMode m).life = .running := rfl
@[simp] theorem State.startMode_status (s : State) (m : Mode) : (s.startMode m).status = statusOk := rfl

/-! `setStatus` -/
@[simp] theorem State.setStatus_life (s : State) (c : Word) : (s.setStatus c).life = s.life := rfl
@[simp] theorem State.setStatus_mode (s : State) (c : Word) : (s.setStatus c).mode = s.mode := rfl
@[simp] theorem State.setStatus_tim (s : State) (c : Word) : (s.setStatus c).tim = s.tim := rfl
@[simp] theorem State.setStatus_fb (s : State) (c : Word) : (s.setStatus c).fb = s.fb := rfl
@[simp] theorem State.setStatus_line (s : State) (c : Word) : (s.setStatus c).line = s.line := rfl
@[simp] theorem State.setStatus_sub (s : State) (c : Word) : (s.setStatus c).sub = s.sub := rfl
@[simp] theorem State.setStatus_phase (s : State) (c : Word) : (s.setStatus c).phase = s.phase := rfl
@[simp] theorem State.setStatus_frame (s : State) (c : Word) : (s.setStatus c).frame = s.frame := rfl
@[simp] theorem State.setStatus_synced (s : State) (c : Word) : (s.setStatus c).synced = s.synced := rfl
@[simp] theorem State.setStatus_armed (s : State) (c : Word) : (s.setStatus c).armed = s.armed := rfl
@[simp] theorem State.setStatus_ldpend (s : State) (c : Word) : (s.setStatus c).ldpend = s.ldpend := rfl
@[simp] theorem State.setStatus_vsync (s : State) (c : Word) : (s.setStatus c).vsync = s.vsync := rfl
@[simp] theorem State.setStatus_vpol (s : State) (c : Word) : (s.setStatus c).vpol = s.vpol := rfl
@[simp] theorem State.setStatus_cslot0 (s : State) (c : Word) : (s.setStatus c).cslot0 = s.cslot0 := rfl
@[simp] theorem State.setStatus_cslot1 (s : State) (c : Word) : (s.setStatus c).cslot1 = s.cslot1 := rfl
@[simp] theorem State.setStatus_win (s : State) (c : Word) : (s.setStatus c).win = s.win := rfl
@[simp] theorem State.setStatus_result (s : State) (c : Word) : (s.setStatus c).result = s.result := rfl
@[simp] theorem State.setStatus_args (s : State) (c : Word) : (s.setStatus c).args = s.args := rfl
@[simp] theorem State.setStatus_cfg (s : State) (c : Word) : (s.setStatus c).cfg = s.cfg := rfl
@[simp] theorem State.setStatus_fault (s : State) (c : Word) : (s.setStatus c).fault = s.fault := rfl
@[simp] theorem State.setStatus_pwm (s : State) (c : Word) : (s.setStatus c).pwm = s.pwm := rfl
@[simp] theorem State.setStatus_lt (s : State) (c : Word) : (s.setStatus c).lt = s.lt := rfl
@[simp] theorem State.setStatus_dma (s : State) (c : Word) : (s.setStatus c).dma = s.dma := rfl
@[simp] theorem State.setStatus_spi (s : State) (c : Word) : (s.setStatus c).spi = s.spi := rfl
@[simp] theorem State.setStatus_port (s : State) (c : Word) : (s.setStatus c).port = s.port := rfl
@[simp] theorem State.setStatus_gpio (s : State) (c : Word) : (s.setStatus c).gpio = s.gpio := rfl
@[simp] theorem State.setStatus_nvic (s : State) (c : Word) : (s.setStatus c).nvic = s.nvic := rfl
@[simp] theorem State.setStatus_dmaFirst (s : State) (c : Word) : (s.setStatus c).dmaFirst = s.dmaFirst := rfl
@[simp] theorem State.setStatus_sleep (s : State) (c : Word) : (s.setStatus c).sleep = s.sleep := rfl
@[simp] theorem State.setStatus_mem (s : State) (c : Word) : (s.setStatus c).mem = s.mem := rfl
@[simp] theorem State.setStatus_inbox (s : State) (c : Word) : (s.setStatus c).inbox = s.inbox := rfl
@[simp] theorem State.setStatus_waiting (s : State) (c : Word) : (s.setStatus c).waiting = s.waiting := rfl
@[simp] theorem State.setStatus_busData (s : State) (c : Word) : (s.setStatus c).busData = s.busData := rfl
@[simp] theorem State.setStatus_lastSent (s : State) (c : Word) : (s.setStatus c).lastSent = s.lastSent := rfl
@[simp] theorem State.setStatus_draws (s : State) (c : Word) : (s.setStatus c).draws = s.draws := rfl
@[simp] theorem State.setStatus_races (s : State) (c : Word) : (s.setStatus c).races = s.races := rfl
/-! `raiseFault` -/
@[simp] theorem State.raiseFault_life (s : State) (k : FaultBit) : (s.raiseFault k).life = s.life := rfl
@[simp] theorem State.raiseFault_mode (s : State) (k : FaultBit) : (s.raiseFault k).mode = s.mode := rfl
@[simp] theorem State.raiseFault_tim (s : State) (k : FaultBit) : (s.raiseFault k).tim = s.tim := rfl
@[simp] theorem State.raiseFault_fb (s : State) (k : FaultBit) : (s.raiseFault k).fb = s.fb := rfl
@[simp] theorem State.raiseFault_line (s : State) (k : FaultBit) : (s.raiseFault k).line = s.line := rfl
@[simp] theorem State.raiseFault_sub (s : State) (k : FaultBit) : (s.raiseFault k).sub = s.sub := rfl
@[simp] theorem State.raiseFault_phase (s : State) (k : FaultBit) : (s.raiseFault k).phase = s.phase := rfl
@[simp] theorem State.raiseFault_frame (s : State) (k : FaultBit) : (s.raiseFault k).frame = s.frame := rfl
@[simp] theorem State.raiseFault_synced (s : State) (k : FaultBit) : (s.raiseFault k).synced = s.synced := rfl
@[simp] theorem State.raiseFault_armed (s : State) (k : FaultBit) : (s.raiseFault k).armed = s.armed := rfl
@[simp] theorem State.raiseFault_ldpend (s : State) (k : FaultBit) : (s.raiseFault k).ldpend = s.ldpend := rfl
@[simp] theorem State.raiseFault_vsync (s : State) (k : FaultBit) : (s.raiseFault k).vsync = s.vsync := rfl
@[simp] theorem State.raiseFault_vpol (s : State) (k : FaultBit) : (s.raiseFault k).vpol = s.vpol := rfl
@[simp] theorem State.raiseFault_cslot0 (s : State) (k : FaultBit) : (s.raiseFault k).cslot0 = s.cslot0 := rfl
@[simp] theorem State.raiseFault_cslot1 (s : State) (k : FaultBit) : (s.raiseFault k).cslot1 = s.cslot1 := rfl
@[simp] theorem State.raiseFault_win (s : State) (k : FaultBit) : (s.raiseFault k).win = s.win := rfl
@[simp] theorem State.raiseFault_status (s : State) (k : FaultBit) : (s.raiseFault k).status = s.status := rfl
@[simp] theorem State.raiseFault_result (s : State) (k : FaultBit) : (s.raiseFault k).result = s.result := rfl
@[simp] theorem State.raiseFault_args (s : State) (k : FaultBit) : (s.raiseFault k).args = s.args := rfl
@[simp] theorem State.raiseFault_cfg (s : State) (k : FaultBit) : (s.raiseFault k).cfg = s.cfg := rfl
@[simp] theorem State.raiseFault_pwm (s : State) (k : FaultBit) : (s.raiseFault k).pwm = s.pwm := rfl
@[simp] theorem State.raiseFault_lt (s : State) (k : FaultBit) : (s.raiseFault k).lt = s.lt := rfl
@[simp] theorem State.raiseFault_dma (s : State) (k : FaultBit) : (s.raiseFault k).dma = s.dma := rfl
@[simp] theorem State.raiseFault_spi (s : State) (k : FaultBit) : (s.raiseFault k).spi = s.spi := rfl
@[simp] theorem State.raiseFault_port (s : State) (k : FaultBit) : (s.raiseFault k).port = s.port := rfl
@[simp] theorem State.raiseFault_gpio (s : State) (k : FaultBit) : (s.raiseFault k).gpio = s.gpio := rfl
@[simp] theorem State.raiseFault_nvic (s : State) (k : FaultBit) : (s.raiseFault k).nvic = s.nvic := rfl
@[simp] theorem State.raiseFault_dmaFirst (s : State) (k : FaultBit) : (s.raiseFault k).dmaFirst = s.dmaFirst := rfl
@[simp] theorem State.raiseFault_sleep (s : State) (k : FaultBit) : (s.raiseFault k).sleep = s.sleep := rfl
@[simp] theorem State.raiseFault_mem (s : State) (k : FaultBit) : (s.raiseFault k).mem = s.mem := rfl
@[simp] theorem State.raiseFault_inbox (s : State) (k : FaultBit) : (s.raiseFault k).inbox = s.inbox := rfl
@[simp] theorem State.raiseFault_waiting (s : State) (k : FaultBit) : (s.raiseFault k).waiting = s.waiting := rfl
@[simp] theorem State.raiseFault_busData (s : State) (k : FaultBit) : (s.raiseFault k).busData = s.busData := rfl
@[simp] theorem State.raiseFault_lastSent (s : State) (k : FaultBit) : (s.raiseFault k).lastSent = s.lastSent := rfl
@[simp] theorem State.raiseFault_draws (s : State) (k : FaultBit) : (s.raiseFault k).draws = s.draws := rfl
@[simp] theorem State.raiseFault_races (s : State) (k : FaultBit) : (s.raiseFault k).races = s.races := rfl
/-! `enterHandler` -/
@[simp] theorem State.enterHandler_life (s : State) (q : Source) : (s.enterHandler q).life = s.life := rfl
@[simp] theorem State.enterHandler_mode (s : State) (q : Source) : (s.enterHandler q).mode = s.mode := rfl
@[simp] theorem State.enterHandler_tim (s : State) (q : Source) : (s.enterHandler q).tim = s.tim := rfl
@[simp] theorem State.enterHandler_fb (s : State) (q : Source) : (s.enterHandler q).fb = s.fb := rfl
@[simp] theorem State.enterHandler_line (s : State) (q : Source) : (s.enterHandler q).line = s.line := rfl
@[simp] theorem State.enterHandler_sub (s : State) (q : Source) : (s.enterHandler q).sub = s.sub := rfl
@[simp] theorem State.enterHandler_phase (s : State) (q : Source) : (s.enterHandler q).phase = s.phase := rfl
@[simp] theorem State.enterHandler_frame (s : State) (q : Source) : (s.enterHandler q).frame = s.frame := rfl
@[simp] theorem State.enterHandler_synced (s : State) (q : Source) : (s.enterHandler q).synced = s.synced := rfl
@[simp] theorem State.enterHandler_armed (s : State) (q : Source) : (s.enterHandler q).armed = s.armed := rfl
@[simp] theorem State.enterHandler_ldpend (s : State) (q : Source) : (s.enterHandler q).ldpend = s.ldpend := rfl
@[simp] theorem State.enterHandler_vsync (s : State) (q : Source) : (s.enterHandler q).vsync = s.vsync := rfl
@[simp] theorem State.enterHandler_vpol (s : State) (q : Source) : (s.enterHandler q).vpol = s.vpol := rfl
@[simp] theorem State.enterHandler_cslot0 (s : State) (q : Source) : (s.enterHandler q).cslot0 = s.cslot0 := rfl
@[simp] theorem State.enterHandler_cslot1 (s : State) (q : Source) : (s.enterHandler q).cslot1 = s.cslot1 := rfl
@[simp] theorem State.enterHandler_win (s : State) (q : Source) : (s.enterHandler q).win = s.win := rfl
@[simp] theorem State.enterHandler_status (s : State) (q : Source) : (s.enterHandler q).status = s.status := rfl
@[simp] theorem State.enterHandler_result (s : State) (q : Source) : (s.enterHandler q).result = s.result := rfl
@[simp] theorem State.enterHandler_args (s : State) (q : Source) : (s.enterHandler q).args = s.args := rfl
@[simp] theorem State.enterHandler_cfg (s : State) (q : Source) : (s.enterHandler q).cfg = s.cfg := rfl
@[simp] theorem State.enterHandler_fault (s : State) (q : Source) : (s.enterHandler q).fault = s.fault := rfl
@[simp] theorem State.enterHandler_pwm (s : State) (q : Source) : (s.enterHandler q).pwm = s.pwm := rfl
@[simp] theorem State.enterHandler_lt (s : State) (q : Source) : (s.enterHandler q).lt = s.lt := rfl
@[simp] theorem State.enterHandler_dma (s : State) (q : Source) : (s.enterHandler q).dma = s.dma := rfl
@[simp] theorem State.enterHandler_spi (s : State) (q : Source) : (s.enterHandler q).spi = s.spi := rfl
@[simp] theorem State.enterHandler_port (s : State) (q : Source) : (s.enterHandler q).port = s.port := rfl
@[simp] theorem State.enterHandler_gpio (s : State) (q : Source) : (s.enterHandler q).gpio = s.gpio := rfl
@[simp] theorem State.enterHandler_dmaFirst (s : State) (q : Source) : (s.enterHandler q).dmaFirst = s.dmaFirst := rfl
@[simp] theorem State.enterHandler_mem (s : State) (q : Source) : (s.enterHandler q).mem = s.mem := rfl
@[simp] theorem State.enterHandler_inbox (s : State) (q : Source) : (s.enterHandler q).inbox = s.inbox := rfl
@[simp] theorem State.enterHandler_waiting (s : State) (q : Source) : (s.enterHandler q).waiting = s.waiting := rfl
@[simp] theorem State.enterHandler_busData (s : State) (q : Source) : (s.enterHandler q).busData = s.busData := rfl
@[simp] theorem State.enterHandler_lastSent (s : State) (q : Source) : (s.enterHandler q).lastSent = s.lastSent := rfl
@[simp] theorem State.enterHandler_draws (s : State) (q : Source) : (s.enterHandler q).draws = s.draws := rfl
@[simp] theorem State.enterHandler_races (s : State) (q : Source) : (s.enterHandler q).races = s.races := rfl
/-! `ageFlight` -/
@[simp] theorem State.ageFlight_life (s : State) : (s.ageFlight).life = s.life := rfl
@[simp] theorem State.ageFlight_mode (s : State) : (s.ageFlight).mode = s.mode := rfl
@[simp] theorem State.ageFlight_tim (s : State) : (s.ageFlight).tim = s.tim := rfl
@[simp] theorem State.ageFlight_fb (s : State) : (s.ageFlight).fb = s.fb := rfl
@[simp] theorem State.ageFlight_line (s : State) : (s.ageFlight).line = s.line := rfl
@[simp] theorem State.ageFlight_sub (s : State) : (s.ageFlight).sub = s.sub := rfl
@[simp] theorem State.ageFlight_phase (s : State) : (s.ageFlight).phase = s.phase := rfl
@[simp] theorem State.ageFlight_frame (s : State) : (s.ageFlight).frame = s.frame := rfl
@[simp] theorem State.ageFlight_synced (s : State) : (s.ageFlight).synced = s.synced := rfl
@[simp] theorem State.ageFlight_armed (s : State) : (s.ageFlight).armed = s.armed := rfl
@[simp] theorem State.ageFlight_ldpend (s : State) : (s.ageFlight).ldpend = s.ldpend := rfl
@[simp] theorem State.ageFlight_vsync (s : State) : (s.ageFlight).vsync = s.vsync := rfl
@[simp] theorem State.ageFlight_vpol (s : State) : (s.ageFlight).vpol = s.vpol := rfl
@[simp] theorem State.ageFlight_cslot0 (s : State) : (s.ageFlight).cslot0 = s.cslot0 := rfl
@[simp] theorem State.ageFlight_cslot1 (s : State) : (s.ageFlight).cslot1 = s.cslot1 := rfl
@[simp] theorem State.ageFlight_win (s : State) : (s.ageFlight).win = s.win := rfl
@[simp] theorem State.ageFlight_status (s : State) : (s.ageFlight).status = s.status := rfl
@[simp] theorem State.ageFlight_result (s : State) : (s.ageFlight).result = s.result := rfl
@[simp] theorem State.ageFlight_args (s : State) : (s.ageFlight).args = s.args := rfl
@[simp] theorem State.ageFlight_cfg (s : State) : (s.ageFlight).cfg = s.cfg := rfl
@[simp] theorem State.ageFlight_fault (s : State) : (s.ageFlight).fault = s.fault := rfl
@[simp] theorem State.ageFlight_pwm (s : State) : (s.ageFlight).pwm = s.pwm := rfl
@[simp] theorem State.ageFlight_lt (s : State) : (s.ageFlight).lt = s.lt := rfl
@[simp] theorem State.ageFlight_spi (s : State) : (s.ageFlight).spi = s.spi := rfl
@[simp] theorem State.ageFlight_port (s : State) : (s.ageFlight).port = s.port := rfl
@[simp] theorem State.ageFlight_gpio (s : State) : (s.ageFlight).gpio = s.gpio := rfl
@[simp] theorem State.ageFlight_nvic (s : State) : (s.ageFlight).nvic = s.nvic := rfl
@[simp] theorem State.ageFlight_dmaFirst (s : State) : (s.ageFlight).dmaFirst = s.dmaFirst := rfl
@[simp] theorem State.ageFlight_sleep (s : State) : (s.ageFlight).sleep = s.sleep := rfl
@[simp] theorem State.ageFlight_mem (s : State) : (s.ageFlight).mem = s.mem := rfl
@[simp] theorem State.ageFlight_inbox (s : State) : (s.ageFlight).inbox = s.inbox := rfl
@[simp] theorem State.ageFlight_waiting (s : State) : (s.ageFlight).waiting = s.waiting := rfl
@[simp] theorem State.ageFlight_busData (s : State) : (s.ageFlight).busData = s.busData := rfl
@[simp] theorem State.ageFlight_lastSent (s : State) : (s.ageFlight).lastSent = s.lastSent := rfl
@[simp] theorem State.ageFlight_draws (s : State) : (s.ageFlight).draws = s.draws := rfl
@[simp] theorem State.ageFlight_races (s : State) : (s.ageFlight).races = s.races := rfl
/-! `dmaComplete` -/
@[simp] theorem State.dmaComplete_life (s : State) : (s.dmaComplete).life = s.life := rfl
@[simp] theorem State.dmaComplete_mode (s : State) : (s.dmaComplete).mode = s.mode := rfl
@[simp] theorem State.dmaComplete_tim (s : State) : (s.dmaComplete).tim = s.tim := rfl
@[simp] theorem State.dmaComplete_fb (s : State) : (s.dmaComplete).fb = s.fb := rfl
@[simp] theorem State.dmaComplete_line (s : State) : (s.dmaComplete).line = s.line := rfl
@[simp] theorem State.dmaComplete_sub (s : State) : (s.dmaComplete).sub = s.sub := rfl
@[simp] theorem State.dmaComplete_phase (s : State) : (s.dmaComplete).phase = s.phase := rfl
@[simp] theorem State.dmaComplete_frame (s : State) : (s.dmaComplete).frame = s.frame := rfl
@[simp] theorem State.dmaComplete_synced (s : State) : (s.dmaComplete).synced = s.synced := rfl
@[simp] theorem State.dmaComplete_armed (s : State) : (s.dmaComplete).armed = s.armed := rfl
@[simp] theorem State.dmaComplete_ldpend (s : State) : (s.dmaComplete).ldpend = s.ldpend := rfl
@[simp] theorem State.dmaComplete_vsync (s : State) : (s.dmaComplete).vsync = s.vsync := rfl
@[simp] theorem State.dmaComplete_vpol (s : State) : (s.dmaComplete).vpol = s.vpol := rfl
@[simp] theorem State.dmaComplete_cslot0 (s : State) : (s.dmaComplete).cslot0 = s.cslot0 := rfl
@[simp] theorem State.dmaComplete_cslot1 (s : State) : (s.dmaComplete).cslot1 = s.cslot1 := rfl
@[simp] theorem State.dmaComplete_win (s : State) : (s.dmaComplete).win = s.win := rfl
@[simp] theorem State.dmaComplete_status (s : State) : (s.dmaComplete).status = s.status := rfl
@[simp] theorem State.dmaComplete_result (s : State) : (s.dmaComplete).result = s.result := rfl
@[simp] theorem State.dmaComplete_args (s : State) : (s.dmaComplete).args = s.args := rfl
@[simp] theorem State.dmaComplete_cfg (s : State) : (s.dmaComplete).cfg = s.cfg := rfl
@[simp] theorem State.dmaComplete_fault (s : State) : (s.dmaComplete).fault = s.fault := rfl
@[simp] theorem State.dmaComplete_pwm (s : State) : (s.dmaComplete).pwm = s.pwm := rfl
@[simp] theorem State.dmaComplete_lt (s : State) : (s.dmaComplete).lt = s.lt := rfl
@[simp] theorem State.dmaComplete_spi (s : State) : (s.dmaComplete).spi = s.spi := rfl
@[simp] theorem State.dmaComplete_port (s : State) : (s.dmaComplete).port = s.port := rfl
@[simp] theorem State.dmaComplete_gpio (s : State) : (s.dmaComplete).gpio = s.gpio := rfl
@[simp] theorem State.dmaComplete_nvic (s : State) : (s.dmaComplete).nvic = s.nvic := rfl
@[simp] theorem State.dmaComplete_dmaFirst (s : State) : (s.dmaComplete).dmaFirst = s.dmaFirst := rfl
@[simp] theorem State.dmaComplete_sleep (s : State) : (s.dmaComplete).sleep = s.sleep := rfl
@[simp] theorem State.dmaComplete_mem (s : State) : (s.dmaComplete).mem = s.mem := rfl
@[simp] theorem State.dmaComplete_inbox (s : State) : (s.dmaComplete).inbox = s.inbox := rfl
@[simp] theorem State.dmaComplete_waiting (s : State) : (s.dmaComplete).waiting = s.waiting := rfl
@[simp] theorem State.dmaComplete_busData (s : State) : (s.dmaComplete).busData = s.busData := rfl
@[simp] theorem State.dmaComplete_draws (s : State) : (s.dmaComplete).draws = s.draws := rfl
@[simp] theorem State.dmaComplete_races (s : State) : (s.dmaComplete).races = s.races := rfl
/-! `release` -/
@[simp] theorem State.release_life (s : State) : (s.release).life = s.life := rfl
@[simp] theorem State.release_mode (s : State) : (s.release).mode = s.mode := rfl
@[simp] theorem State.release_tim (s : State) : (s.release).tim = s.tim := rfl
@[simp] theorem State.release_line (s : State) : (s.release).line = s.line := rfl
@[simp] theorem State.release_sub (s : State) : (s.release).sub = s.sub := rfl
@[simp] theorem State.release_phase (s : State) : (s.release).phase = s.phase := rfl
@[simp] theorem State.release_frame (s : State) : (s.release).frame = s.frame := rfl
@[simp] theorem State.release_synced (s : State) : (s.release).synced = s.synced := rfl
@[simp] theorem State.release_armed (s : State) : (s.release).armed = s.armed := rfl
@[simp] theorem State.release_ldpend (s : State) : (s.release).ldpend = s.ldpend := rfl
@[simp] theorem State.release_vsync (s : State) : (s.release).vsync = s.vsync := rfl
@[simp] theorem State.release_vpol (s : State) : (s.release).vpol = s.vpol := rfl
@[simp] theorem State.release_cslot0 (s : State) : (s.release).cslot0 = s.cslot0 := rfl
@[simp] theorem State.release_cslot1 (s : State) : (s.release).cslot1 = s.cslot1 := rfl
@[simp] theorem State.release_win (s : State) : (s.release).win = s.win := rfl
@[simp] theorem State.release_status (s : State) : (s.release).status = s.status := rfl
@[simp] theorem State.release_result (s : State) : (s.release).result = s.result := rfl
@[simp] theorem State.release_args (s : State) : (s.release).args = s.args := rfl
@[simp] theorem State.release_cfg (s : State) : (s.release).cfg = s.cfg := rfl
@[simp] theorem State.release_fault (s : State) : (s.release).fault = s.fault := rfl
@[simp] theorem State.release_pwm (s : State) : (s.release).pwm = s.pwm := rfl
@[simp] theorem State.release_lt (s : State) : (s.release).lt = s.lt := rfl
@[simp] theorem State.release_dma (s : State) : (s.release).dma = s.dma := rfl
@[simp] theorem State.release_spi (s : State) : (s.release).spi = s.spi := rfl
@[simp] theorem State.release_port (s : State) : (s.release).port = s.port := rfl
@[simp] theorem State.release_gpio (s : State) : (s.release).gpio = s.gpio := rfl
@[simp] theorem State.release_nvic (s : State) : (s.release).nvic = s.nvic := rfl
@[simp] theorem State.release_dmaFirst (s : State) : (s.release).dmaFirst = s.dmaFirst := rfl
@[simp] theorem State.release_sleep (s : State) : (s.release).sleep = s.sleep := rfl
@[simp] theorem State.release_mem (s : State) : (s.release).mem = s.mem := rfl
@[simp] theorem State.release_inbox (s : State) : (s.release).inbox = s.inbox := rfl
@[simp] theorem State.release_waiting (s : State) : (s.release).waiting = s.waiting := rfl
@[simp] theorem State.release_busData (s : State) : (s.release).busData = s.busData := rfl
@[simp] theorem State.release_lastSent (s : State) : (s.release).lastSent = s.lastSent := rfl
@[simp] theorem State.release_draws (s : State) : (s.release).draws = s.draws := rfl
@[simp] theorem State.release_races (s : State) : (s.release).races = s.races := rfl
/-! `lockStep` -/
@[simp] theorem State.lockStep_life (s : State) : (s.lockStep).life = s.life := rfl
@[simp] theorem State.lockStep_mode (s : State) : (s.lockStep).mode = s.mode := rfl
@[simp] theorem State.lockStep_tim (s : State) : (s.lockStep).tim = s.tim := rfl
@[simp] theorem State.lockStep_fb (s : State) : (s.lockStep).fb = s.fb := rfl
@[simp] theorem State.lockStep_line (s : State) : (s.lockStep).line = s.line := rfl
@[simp] theorem State.lockStep_sub (s : State) : (s.lockStep).sub = s.sub := rfl
@[simp] theorem State.lockStep_phase (s : State) : (s.lockStep).phase = s.phase := rfl
@[simp] theorem State.lockStep_frame (s : State) : (s.lockStep).frame = s.frame := rfl
@[simp] theorem State.lockStep_armed (s : State) : (s.lockStep).armed = s.armed := rfl
@[simp] theorem State.lockStep_ldpend (s : State) : (s.lockStep).ldpend = s.ldpend := rfl
@[simp] theorem State.lockStep_vsync (s : State) : (s.lockStep).vsync = s.vsync := rfl
@[simp] theorem State.lockStep_vpol (s : State) : (s.lockStep).vpol = s.vpol := rfl
@[simp] theorem State.lockStep_cslot0 (s : State) : (s.lockStep).cslot0 = s.cslot0 := rfl
@[simp] theorem State.lockStep_cslot1 (s : State) : (s.lockStep).cslot1 = s.cslot1 := rfl
@[simp] theorem State.lockStep_win (s : State) : (s.lockStep).win = s.win := rfl
@[simp] theorem State.lockStep_status (s : State) : (s.lockStep).status = s.status := rfl
@[simp] theorem State.lockStep_result (s : State) : (s.lockStep).result = s.result := rfl
@[simp] theorem State.lockStep_args (s : State) : (s.lockStep).args = s.args := rfl
@[simp] theorem State.lockStep_cfg (s : State) : (s.lockStep).cfg = s.cfg := rfl
@[simp] theorem State.lockStep_fault (s : State) : (s.lockStep).fault = s.fault := rfl
@[simp] theorem State.lockStep_pwm (s : State) : (s.lockStep).pwm = s.pwm := rfl
@[simp] theorem State.lockStep_dma (s : State) : (s.lockStep).dma = s.dma := rfl
@[simp] theorem State.lockStep_spi (s : State) : (s.lockStep).spi = s.spi := rfl
@[simp] theorem State.lockStep_port (s : State) : (s.lockStep).port = s.port := rfl
@[simp] theorem State.lockStep_gpio (s : State) : (s.lockStep).gpio = s.gpio := rfl
@[simp] theorem State.lockStep_nvic (s : State) : (s.lockStep).nvic = s.nvic := rfl
@[simp] theorem State.lockStep_dmaFirst (s : State) : (s.lockStep).dmaFirst = s.dmaFirst := rfl
@[simp] theorem State.lockStep_sleep (s : State) : (s.lockStep).sleep = s.sleep := rfl
@[simp] theorem State.lockStep_mem (s : State) : (s.lockStep).mem = s.mem := rfl
@[simp] theorem State.lockStep_inbox (s : State) : (s.lockStep).inbox = s.inbox := rfl
@[simp] theorem State.lockStep_waiting (s : State) : (s.lockStep).waiting = s.waiting := rfl
@[simp] theorem State.lockStep_busData (s : State) : (s.lockStep).busData = s.busData := rfl
@[simp] theorem State.lockStep_lastSent (s : State) : (s.lockStep).lastSent = s.lastSent := rfl
@[simp] theorem State.lockStep_draws (s : State) : (s.lockStep).draws = s.draws := rfl
@[simp] theorem State.lockStep_races (s : State) : (s.lockStep).races = s.races := rfl
/-! `vgaVsync` -/
@[simp] theorem State.vgaVsync_life (s : State) : (s.vgaVsync).life = s.life := rfl
@[simp] theorem State.vgaVsync_mode (s : State) : (s.vgaVsync).mode = s.mode := rfl
@[simp] theorem State.vgaVsync_tim (s : State) : (s.vgaVsync).tim = s.tim := rfl
@[simp] theorem State.vgaVsync_fb (s : State) : (s.vgaVsync).fb = s.fb := rfl
@[simp] theorem State.vgaVsync_line (s : State) : (s.vgaVsync).line = s.line := rfl
@[simp] theorem State.vgaVsync_sub (s : State) : (s.vgaVsync).sub = s.sub := rfl
@[simp] theorem State.vgaVsync_phase (s : State) : (s.vgaVsync).phase = s.phase := rfl
@[simp] theorem State.vgaVsync_frame (s : State) : (s.vgaVsync).frame = s.frame := rfl
@[simp] theorem State.vgaVsync_synced (s : State) : (s.vgaVsync).synced = s.synced := rfl
@[simp] theorem State.vgaVsync_armed (s : State) : (s.vgaVsync).armed = s.armed := rfl
@[simp] theorem State.vgaVsync_ldpend (s : State) : (s.vgaVsync).ldpend = s.ldpend := rfl
@[simp] theorem State.vgaVsync_vpol (s : State) : (s.vgaVsync).vpol = s.vpol := rfl
@[simp] theorem State.vgaVsync_cslot0 (s : State) : (s.vgaVsync).cslot0 = s.cslot0 := rfl
@[simp] theorem State.vgaVsync_cslot1 (s : State) : (s.vgaVsync).cslot1 = s.cslot1 := rfl
@[simp] theorem State.vgaVsync_win (s : State) : (s.vgaVsync).win = s.win := rfl
@[simp] theorem State.vgaVsync_status (s : State) : (s.vgaVsync).status = s.status := rfl
@[simp] theorem State.vgaVsync_result (s : State) : (s.vgaVsync).result = s.result := rfl
@[simp] theorem State.vgaVsync_args (s : State) : (s.vgaVsync).args = s.args := rfl
@[simp] theorem State.vgaVsync_cfg (s : State) : (s.vgaVsync).cfg = s.cfg := rfl
@[simp] theorem State.vgaVsync_fault (s : State) : (s.vgaVsync).fault = s.fault := rfl
@[simp] theorem State.vgaVsync_pwm (s : State) : (s.vgaVsync).pwm = s.pwm := rfl
@[simp] theorem State.vgaVsync_lt (s : State) : (s.vgaVsync).lt = s.lt := rfl
@[simp] theorem State.vgaVsync_dma (s : State) : (s.vgaVsync).dma = s.dma := rfl
@[simp] theorem State.vgaVsync_spi (s : State) : (s.vgaVsync).spi = s.spi := rfl
@[simp] theorem State.vgaVsync_port (s : State) : (s.vgaVsync).port = s.port := rfl
@[simp] theorem State.vgaVsync_nvic (s : State) : (s.vgaVsync).nvic = s.nvic := rfl
@[simp] theorem State.vgaVsync_dmaFirst (s : State) : (s.vgaVsync).dmaFirst = s.dmaFirst := rfl
@[simp] theorem State.vgaVsync_sleep (s : State) : (s.vgaVsync).sleep = s.sleep := rfl
@[simp] theorem State.vgaVsync_mem (s : State) : (s.vgaVsync).mem = s.mem := rfl
@[simp] theorem State.vgaVsync_inbox (s : State) : (s.vgaVsync).inbox = s.inbox := rfl
@[simp] theorem State.vgaVsync_waiting (s : State) : (s.vgaVsync).waiting = s.waiting := rfl
@[simp] theorem State.vgaVsync_busData (s : State) : (s.vgaVsync).busData = s.busData := rfl
@[simp] theorem State.vgaVsync_lastSent (s : State) : (s.vgaVsync).lastSent = s.lastSent := rfl
@[simp] theorem State.vgaVsync_draws (s : State) : (s.vgaVsync).draws = s.draws := rfl
@[simp] theorem State.vgaVsync_races (s : State) : (s.vgaVsync).races = s.races := rfl
/-! `readMemory` -/
@[simp] theorem State.readMemory_life (s : State) (a : Addr) (w : Width) : (s.readMemory a w).life = s.life := rfl
@[simp] theorem State.readMemory_mode (s : State) (a : Addr) (w : Width) : (s.readMemory a w).mode = s.mode := rfl
@[simp] theorem State.readMemory_tim (s : State) (a : Addr) (w : Width) : (s.readMemory a w).tim = s.tim := rfl
@[simp] theorem State.readMemory_fb (s : State) (a : Addr) (w : Width) : (s.readMemory a w).fb = s.fb := rfl
@[simp] theorem State.readMemory_line (s : State) (a : Addr) (w : Width) : (s.readMemory a w).line = s.line := rfl
@[simp] theorem State.readMemory_sub (s : State) (a : Addr) (w : Width) : (s.readMemory a w).sub = s.sub := rfl
@[simp] theorem State.readMemory_phase (s : State) (a : Addr) (w : Width) : (s.readMemory a w).phase = s.phase := rfl
@[simp] theorem State.readMemory_frame (s : State) (a : Addr) (w : Width) : (s.readMemory a w).frame = s.frame := rfl
@[simp] theorem State.readMemory_synced (s : State) (a : Addr) (w : Width) : (s.readMemory a w).synced = s.synced := rfl
@[simp] theorem State.readMemory_armed (s : State) (a : Addr) (w : Width) : (s.readMemory a w).armed = s.armed := rfl
@[simp] theorem State.readMemory_ldpend (s : State) (a : Addr) (w : Width) : (s.readMemory a w).ldpend = s.ldpend := rfl
@[simp] theorem State.readMemory_vsync (s : State) (a : Addr) (w : Width) : (s.readMemory a w).vsync = s.vsync := rfl
@[simp] theorem State.readMemory_vpol (s : State) (a : Addr) (w : Width) : (s.readMemory a w).vpol = s.vpol := rfl
@[simp] theorem State.readMemory_cslot0 (s : State) (a : Addr) (w : Width) : (s.readMemory a w).cslot0 = s.cslot0 := rfl
@[simp] theorem State.readMemory_cslot1 (s : State) (a : Addr) (w : Width) : (s.readMemory a w).cslot1 = s.cslot1 := rfl
@[simp] theorem State.readMemory_win (s : State) (a : Addr) (w : Width) : (s.readMemory a w).win = s.win := rfl
@[simp] theorem State.readMemory_status (s : State) (a : Addr) (w : Width) : (s.readMemory a w).status = s.status := rfl
@[simp] theorem State.readMemory_result (s : State) (a : Addr) (w : Width) : (s.readMemory a w).result = s.result := rfl
@[simp] theorem State.readMemory_args (s : State) (a : Addr) (w : Width) : (s.readMemory a w).args = s.args := rfl
@[simp] theorem State.readMemory_cfg (s : State) (a : Addr) (w : Width) : (s.readMemory a w).cfg = s.cfg := rfl
@[simp] theorem State.readMemory_fault (s : State) (a : Addr) (w : Width) : (s.readMemory a w).fault = s.fault := rfl
@[simp] theorem State.readMemory_pwm (s : State) (a : Addr) (w : Width) : (s.readMemory a w).pwm = s.pwm := rfl
@[simp] theorem State.readMemory_lt (s : State) (a : Addr) (w : Width) : (s.readMemory a w).lt = s.lt := rfl
@[simp] theorem State.readMemory_dma (s : State) (a : Addr) (w : Width) : (s.readMemory a w).dma = s.dma := rfl
@[simp] theorem State.readMemory_spi (s : State) (a : Addr) (w : Width) : (s.readMemory a w).spi = s.spi := rfl
@[simp] theorem State.readMemory_port (s : State) (a : Addr) (w : Width) : (s.readMemory a w).port = s.port := rfl
@[simp] theorem State.readMemory_gpio (s : State) (a : Addr) (w : Width) : (s.readMemory a w).gpio = s.gpio := rfl
@[simp] theorem State.readMemory_nvic (s : State) (a : Addr) (w : Width) : (s.readMemory a w).nvic = s.nvic := rfl
@[simp] theorem State.readMemory_dmaFirst (s : State) (a : Addr) (w : Width) : (s.readMemory a w).dmaFirst = s.dmaFirst := rfl
@[simp] theorem State.readMemory_sleep (s : State) (a : Addr) (w : Width) : (s.readMemory a w).sleep = s.sleep := rfl
@[simp] theorem State.readMemory_mem (s : State) (a : Addr) (w : Width) : (s.readMemory a w).mem = s.mem := rfl
@[simp] theorem State.readMemory_inbox (s : State) (a : Addr) (w : Width) : (s.readMemory a w).inbox = s.inbox := rfl
@[simp] theorem State.readMemory_waiting (s : State) (a : Addr) (w : Width) : (s.readMemory a w).waiting = s.waiting := rfl
@[simp] theorem State.readMemory_lastSent (s : State) (a : Addr) (w : Width) : (s.readMemory a w).lastSent = s.lastSent := rfl
@[simp] theorem State.readMemory_draws (s : State) (a : Addr) (w : Width) : (s.readMemory a w).draws = s.draws := rfl
@[simp] theorem State.readMemory_races (s : State) (a : Addr) (w : Width) : (s.readMemory a w).races = s.races := rfl
/-! `allocated` -/
@[simp] theorem State.allocated_life (s : State) (m : Mode) (w h : Nat) : (s.allocated m w h).life = s.life := rfl
@[simp] theorem State.allocated_mode (s : State) (m : Mode) (w h : Nat) : (s.allocated m w h).mode = s.mode := rfl
@[simp] theorem State.allocated_tim (s : State) (m : Mode) (w h : Nat) : (s.allocated m w h).tim = s.tim := rfl
@[simp] theorem State.allocated_line (s : State) (m : Mode) (w h : Nat) : (s.allocated m w h).line = s.line := rfl
@[simp] theorem State.allocated_sub (s : State) (m : Mode) (w h : Nat) : (s.allocated m w h).sub = s.sub := rfl
@[simp] theorem State.allocated_phase (s : State) (m : Mode) (w h : Nat) : (s.allocated m w h).phase = s.phase := rfl
@[simp] theorem State.allocated_frame (s : State) (m : Mode) (w h : Nat) : (s.allocated m w h).frame = s.frame := rfl
@[simp] theorem State.allocated_synced (s : State) (m : Mode) (w h : Nat) : (s.allocated m w h).synced = s.synced := rfl
@[simp] theorem State.allocated_armed (s : State) (m : Mode) (w h : Nat) : (s.allocated m w h).armed = s.armed := rfl
@[simp] theorem State.allocated_ldpend (s : State) (m : Mode) (w h : Nat) : (s.allocated m w h).ldpend = s.ldpend := rfl
@[simp] theorem State.allocated_vsync (s : State) (m : Mode) (w h : Nat) : (s.allocated m w h).vsync = s.vsync := rfl
@[simp] theorem State.allocated_vpol (s : State) (m : Mode) (w h : Nat) : (s.allocated m w h).vpol = s.vpol := rfl
@[simp] theorem State.allocated_cslot0 (s : State) (m : Mode) (w h : Nat) : (s.allocated m w h).cslot0 = s.cslot0 := rfl
@[simp] theorem State.allocated_cslot1 (s : State) (m : Mode) (w h : Nat) : (s.allocated m w h).cslot1 = s.cslot1 := rfl
@[simp] theorem State.allocated_win (s : State) (m : Mode) (w h : Nat) : (s.allocated m w h).win = s.win := rfl
@[simp] theorem State.allocated_status (s : State) (m : Mode) (w h : Nat) : (s.allocated m w h).status = s.status := rfl
@[simp] theorem State.allocated_result (s : State) (m : Mode) (w h : Nat) : (s.allocated m w h).result = s.result := rfl
@[simp] theorem State.allocated_args (s : State) (m : Mode) (w h : Nat) : (s.allocated m w h).args = s.args := rfl
@[simp] theorem State.allocated_cfg (s : State) (m : Mode) (w h : Nat) : (s.allocated m w h).cfg = s.cfg := rfl
@[simp] theorem State.allocated_fault (s : State) (m : Mode) (w h : Nat) : (s.allocated m w h).fault = s.fault := rfl
@[simp] theorem State.allocated_pwm (s : State) (m : Mode) (w h : Nat) : (s.allocated m w h).pwm = s.pwm := rfl
@[simp] theorem State.allocated_lt (s : State) (m : Mode) (w h : Nat) : (s.allocated m w h).lt = s.lt := rfl
@[simp] theorem State.allocated_dma (s : State) (m : Mode) (w h : Nat) : (s.allocated m w h).dma = s.dma := rfl
@[simp] theorem State.allocated_spi (s : State) (m : Mode) (w h : Nat) : (s.allocated m w h).spi = s.spi := rfl
@[simp] theorem State.allocated_port (s : State) (m : Mode) (w h : Nat) : (s.allocated m w h).port = s.port := rfl
@[simp] theorem State.allocated_gpio (s : State) (m : Mode) (w h : Nat) : (s.allocated m w h).gpio = s.gpio := rfl
@[simp] theorem State.allocated_nvic (s : State) (m : Mode) (w h : Nat) : (s.allocated m w h).nvic = s.nvic := rfl
@[simp] theorem State.allocated_dmaFirst (s : State) (m : Mode) (w h : Nat) : (s.allocated m w h).dmaFirst = s.dmaFirst := rfl
@[simp] theorem State.allocated_sleep (s : State) (m : Mode) (w h : Nat) : (s.allocated m w h).sleep = s.sleep := rfl
@[simp] theorem State.allocated_inbox (s : State) (m : Mode) (w h : Nat) : (s.allocated m w h).inbox = s.inbox := rfl
@[simp] theorem State.allocated_waiting (s : State) (m : Mode) (w h : Nat) : (s.allocated m w h).waiting = s.waiting := rfl
@[simp] theorem State.allocated_busData (s : State) (m : Mode) (w h : Nat) : (s.allocated m w h).busData = s.busData := rfl
@[simp] theorem State.allocated_lastSent (s : State) (m : Mode) (w h : Nat) : (s.allocated m w h).lastSent = s.lastSent := rfl
@[simp] theorem State.allocated_races (s : State) (m : Mode) (w h : Nat) : (s.allocated m w h).races = s.races := rfl
/-! `disarm` -/
@[simp] theorem State.disarm_life (s : State) : (s.disarm).life = s.life := rfl
@[simp] theorem State.disarm_mode (s : State) : (s.disarm).mode = s.mode := rfl
@[simp] theorem State.disarm_tim (s : State) : (s.disarm).tim = s.tim := rfl
@[simp] theorem State.disarm_fb (s : State) : (s.disarm).fb = s.fb := rfl
@[simp] theorem State.disarm_line (s : State) : (s.disarm).line = s.line := rfl
@[simp] theorem State.disarm_sub (s : State) : (s.disarm).sub = s.sub := rfl
@[simp] theorem State.disarm_phase (s : State) : (s.disarm).phase = s.phase := rfl
@[simp] theorem State.disarm_frame (s : State) : (s.disarm).frame = s.frame := rfl
@[simp] theorem State.disarm_synced (s : State) : (s.disarm).synced = s.synced := rfl
@[simp] theorem State.disarm_armed (s : State) : (s.disarm).armed = s.armed := rfl
@[simp] theorem State.disarm_ldpend (s : State) : (s.disarm).ldpend = s.ldpend := rfl
@[simp] theorem State.disarm_vsync (s : State) : (s.disarm).vsync = s.vsync := rfl
@[simp] theorem State.disarm_vpol (s : State) : (s.disarm).vpol = s.vpol := rfl
@[simp] theorem State.disarm_cslot0 (s : State) : (s.disarm).cslot0 = s.cslot0 := rfl
@[simp] theorem State.disarm_cslot1 (s : State) : (s.disarm).cslot1 = s.cslot1 := rfl
@[simp] theorem State.disarm_win (s : State) : (s.disarm).win = s.win := rfl
@[simp] theorem State.disarm_status (s : State) : (s.disarm).status = s.status := rfl
@[simp] theorem State.disarm_result (s : State) : (s.disarm).result = s.result := rfl
@[simp] theorem State.disarm_args (s : State) : (s.disarm).args = s.args := rfl
@[simp] theorem State.disarm_cfg (s : State) : (s.disarm).cfg = s.cfg := rfl
@[simp] theorem State.disarm_fault (s : State) : (s.disarm).fault = s.fault := rfl
@[simp] theorem State.disarm_mem (s : State) : (s.disarm).mem = s.mem := rfl
@[simp] theorem State.disarm_inbox (s : State) : (s.disarm).inbox = s.inbox := rfl
@[simp] theorem State.disarm_waiting (s : State) : (s.disarm).waiting = s.waiting := rfl
@[simp] theorem State.disarm_busData (s : State) : (s.disarm).busData = s.busData := rfl
@[simp] theorem State.disarm_lastSent (s : State) : (s.disarm).lastSent = s.lastSent := rfl
@[simp] theorem State.disarm_draws (s : State) : (s.disarm).draws = s.draws := rfl
@[simp] theorem State.disarm_races (s : State) : (s.disarm).races = s.races := rfl
/-! `arm` -/
@[simp] theorem State.arm_life (s : State) (m : Mode) : (s.arm m).life = s.life := rfl
@[simp] theorem State.arm_mode (s : State) (m : Mode) : (s.arm m).mode = s.mode := rfl
@[simp] theorem State.arm_tim (s : State) (m : Mode) : (s.arm m).tim = s.tim := rfl
@[simp] theorem State.arm_fb (s : State) (m : Mode) : (s.arm m).fb = s.fb := rfl
@[simp] theorem State.arm_win (s : State) (m : Mode) : (s.arm m).win = s.win := rfl
@[simp] theorem State.arm_status (s : State) (m : Mode) : (s.arm m).status = s.status := rfl
@[simp] theorem State.arm_result (s : State) (m : Mode) : (s.arm m).result = s.result := rfl
@[simp] theorem State.arm_args (s : State) (m : Mode) : (s.arm m).args = s.args := rfl
@[simp] theorem State.arm_cfg (s : State) (m : Mode) : (s.arm m).cfg = s.cfg := rfl
@[simp] theorem State.arm_fault (s : State) (m : Mode) : (s.arm m).fault = s.fault := rfl
@[simp] theorem State.arm_mem (s : State) (m : Mode) : (s.arm m).mem = s.mem := rfl
@[simp] theorem State.arm_inbox (s : State) (m : Mode) : (s.arm m).inbox = s.inbox := rfl
@[simp] theorem State.arm_waiting (s : State) (m : Mode) : (s.arm m).waiting = s.waiting := rfl
@[simp] theorem State.arm_busData (s : State) (m : Mode) : (s.arm m).busData = s.busData := rfl
@[simp] theorem State.arm_lastSent (s : State) (m : Mode) : (s.arm m).lastSent = s.lastSent := rfl
@[simp] theorem State.arm_races (s : State) (m : Mode) : (s.arm m).races = s.races := rfl
/-! `stopRunning` -/
@[simp] theorem State.stopRunning_cslot0 (s : State) : (s.stopRunning).cslot0 = s.cslot0 := rfl
@[simp] theorem State.stopRunning_cslot1 (s : State) : (s.stopRunning).cslot1 = s.cslot1 := rfl
@[simp] theorem State.stopRunning_win (s : State) : (s.stopRunning).win = s.win := rfl
@[simp] theorem State.stopRunning_status (s : State) : (s.stopRunning).status = s.status := rfl
@[simp] theorem State.stopRunning_result (s : State) : (s.stopRunning).result = s.result := rfl
@[simp] theorem State.stopRunning_args (s : State) : (s.stopRunning).args = s.args := rfl
@[simp] theorem State.stopRunning_cfg (s : State) : (s.stopRunning).cfg = s.cfg := rfl
@[simp] theorem State.stopRunning_fault (s : State) : (s.stopRunning).fault = s.fault := rfl
@[simp] theorem State.stopRunning_mem (s : State) : (s.stopRunning).mem = s.mem := rfl
@[simp] theorem State.stopRunning_inbox (s : State) : (s.stopRunning).inbox = s.inbox := rfl
@[simp] theorem State.stopRunning_waiting (s : State) : (s.stopRunning).waiting = s.waiting := rfl
@[simp] theorem State.stopRunning_busData (s : State) : (s.stopRunning).busData = s.busData := rfl
@[simp] theorem State.stopRunning_lastSent (s : State) : (s.stopRunning).lastSent = s.lastSent := rfl
@[simp] theorem State.stopRunning_draws (s : State) : (s.stopRunning).draws = s.draws := rfl
@[simp] theorem State.stopRunning_races (s : State) : (s.stopRunning).races = s.races := rfl
/-! `startMode` -/
@[simp] theorem State.startMode_tim (s : State) (m : Mode) : (s.startMode m).tim = s.tim := rfl
@[simp] theorem State.startMode_fb (s : State) (m : Mode) : (s.startMode m).fb = s.fb := rfl
@[simp] theorem State.startMode_win (s : State) (m : Mode) : (s.startMode m).win = s.win := rfl
@[simp] theorem State.startMode_result (s : State) (m : Mode) : (s.startMode m).result = s.result := rfl
@[simp] theorem State.startMode_args (s : State) (m : Mode) : (s.startMode m).args = s.args := rfl
@[simp] theorem State.startMode_cfg (s : State) (m : Mode) : (s.startMode m).cfg = s.cfg := rfl
@[simp] theorem State.startMode_fault (s : State) (m : Mode) : (s.startMode m).fault = s.fault := rfl
@[simp] theorem State.startMode_mem (s : State) (m : Mode) : (s.startMode m).mem = s.mem := rfl
@[simp] theorem State.startMode_inbox (s : State) (m : Mode) : (s.startMode m).inbox = s.inbox := rfl
@[simp] theorem State.startMode_waiting (s : State) (m : Mode) : (s.startMode m).waiting = s.waiting := rfl
@[simp] theorem State.startMode_busData (s : State) (m : Mode) : (s.startMode m).busData = s.busData := rfl
@[simp] theorem State.startMode_lastSent (s : State) (m : Mode) : (s.startMode m).lastSent = s.lastSent := rfl
@[simp] theorem State.startMode_races (s : State) (m : Mode) : (s.startMode m).races = s.races := rfl

end Sys2Proof.Machine
end

