-- ==== Sys2Proof/Laws/Frames.lean ====
section
/-! SUPPORT. The frame of each operation that branches: the fields it leaves as they were. -/

namespace Sys2Proof.Machine

/-! `race` -/
@[simp] theorem State.race_life (s : State) (b : Addr) (n : Nat) : (s.race b n).life = s.life := by
  unfold State.race; split <;> rfl
@[simp] theorem State.race_mode (s : State) (b : Addr) (n : Nat) : (s.race b n).mode = s.mode := by
  unfold State.race; split <;> rfl
@[simp] theorem State.race_tim (s : State) (b : Addr) (n : Nat) : (s.race b n).tim = s.tim := by
  unfold State.race; split <;> rfl
@[simp] theorem State.race_fb (s : State) (b : Addr) (n : Nat) : (s.race b n).fb = s.fb := by
  unfold State.race; split <;> rfl
@[simp] theorem State.race_line (s : State) (b : Addr) (n : Nat) : (s.race b n).line = s.line := by
  unfold State.race; split <;> rfl
@[simp] theorem State.race_sub (s : State) (b : Addr) (n : Nat) : (s.race b n).sub = s.sub := by
  unfold State.race; split <;> rfl
@[simp] theorem State.race_phase (s : State) (b : Addr) (n : Nat) : (s.race b n).phase = s.phase := by
  unfold State.race; split <;> rfl
@[simp] theorem State.race_frame (s : State) (b : Addr) (n : Nat) : (s.race b n).frame = s.frame := by
  unfold State.race; split <;> rfl
@[simp] theorem State.race_synced (s : State) (b : Addr) (n : Nat) : (s.race b n).synced = s.synced := by
  unfold State.race; split <;> rfl
@[simp] theorem State.race_armed (s : State) (b : Addr) (n : Nat) : (s.race b n).armed = s.armed := by
  unfold State.race; split <;> rfl
@[simp] theorem State.race_ldpend (s : State) (b : Addr) (n : Nat) : (s.race b n).ldpend = s.ldpend := by
  unfold State.race; split <;> rfl
@[simp] theorem State.race_vsync (s : State) (b : Addr) (n : Nat) : (s.race b n).vsync = s.vsync := by
  unfold State.race; split <;> rfl
@[simp] theorem State.race_vpol (s : State) (b : Addr) (n : Nat) : (s.race b n).vpol = s.vpol := by
  unfold State.race; split <;> rfl
@[simp] theorem State.race_cslot0 (s : State) (b : Addr) (n : Nat) : (s.race b n).cslot0 = s.cslot0 := by
  unfold State.race; split <;> rfl
@[simp] theorem State.race_cslot1 (s : State) (b : Addr) (n : Nat) : (s.race b n).cslot1 = s.cslot1 := by
  unfold State.race; split <;> rfl
@[simp] theorem State.race_win (s : State) (b : Addr) (n : Nat) : (s.race b n).win = s.win := by
  unfold State.race; split <;> rfl
@[simp] theorem State.race_status (s : State) (b : Addr) (n : Nat) : (s.race b n).status = s.status := by
  unfold State.race; split <;> rfl
@[simp] theorem State.race_result (s : State) (b : Addr) (n : Nat) : (s.race b n).result = s.result := by
  unfold State.race; split <;> rfl
@[simp] theorem State.race_args (s : State) (b : Addr) (n : Nat) : (s.race b n).args = s.args := by
  unfold State.race; split <;> rfl
@[simp] theorem State.race_cfg (s : State) (b : Addr) (n : Nat) : (s.race b n).cfg = s.cfg := by
  unfold State.race; split <;> rfl
@[simp] theorem State.race_fault (s : State) (b : Addr) (n : Nat) : (s.race b n).fault = s.fault := by
  unfold State.race; split <;> rfl
@[simp] theorem State.race_pwm (s : State) (b : Addr) (n : Nat) : (s.race b n).pwm = s.pwm := by
  unfold State.race; split <;> rfl
@[simp] theorem State.race_lt (s : State) (b : Addr) (n : Nat) : (s.race b n).lt = s.lt := by
  unfold State.race; split <;> rfl
@[simp] theorem State.race_spi (s : State) (b : Addr) (n : Nat) : (s.race b n).spi = s.spi := by
  unfold State.race; split <;> rfl
@[simp] theorem State.race_port (s : State) (b : Addr) (n : Nat) : (s.race b n).port = s.port := by
  unfold State.race; split <;> rfl
@[simp] theorem State.race_gpio (s : State) (b : Addr) (n : Nat) : (s.race b n).gpio = s.gpio := by
  unfold State.race; split <;> rfl
@[simp] theorem State.race_nvic (s : State) (b : Addr) (n : Nat) : (s.race b n).nvic = s.nvic := by
  unfold State.race; split <;> rfl
@[simp] theorem State.race_dmaFirst (s : State) (b : Addr) (n : Nat) : (s.race b n).dmaFirst = s.dmaFirst := by
  unfold State.race; split <;> rfl
@[simp] theorem State.race_sleep (s : State) (b : Addr) (n : Nat) : (s.race b n).sleep = s.sleep := by
  unfold State.race; split <;> rfl
@[simp] theorem State.race_mem (s : State) (b : Addr) (n : Nat) : (s.race b n).mem = s.mem := by
  unfold State.race; split <;> rfl
@[simp] theorem State.race_inbox (s : State) (b : Addr) (n : Nat) : (s.race b n).inbox = s.inbox := by
  unfold State.race; split <;> rfl
@[simp] theorem State.race_waiting (s : State) (b : Addr) (n : Nat) : (s.race b n).waiting = s.waiting := by
  unfold State.race; split <;> rfl
@[simp] theorem State.race_busData (s : State) (b : Addr) (n : Nat) : (s.race b n).busData = s.busData := by
  unfold State.race; split <;> rfl
@[simp] theorem State.race_lastSent (s : State) (b : Addr) (n : Nat) : (s.race b n).lastSent = s.lastSent := by
  unfold State.race; split <;> rfl
@[simp] theorem State.race_draws (s : State) (b : Addr) (n : Nat) : (s.race b n).draws = s.draws := by
  unfold State.race; split <;> rfl
/-! `store` -/
@[simp] theorem State.store_life (s : State) (a : Addr) (n v : Nat) : (s.store a n v).life = s.life := by
  simp [State.store]
@[simp] theorem State.store_mode (s : State) (a : Addr) (n v : Nat) : (s.store a n v).mode = s.mode := by
  simp [State.store]
@[simp] theorem State.store_tim (s : State) (a : Addr) (n v : Nat) : (s.store a n v).tim = s.tim := by
  simp [State.store]
@[simp] theorem State.store_fb (s : State) (a : Addr) (n v : Nat) : (s.store a n v).fb = s.fb := by
  simp [State.store]
@[simp] theorem State.store_line (s : State) (a : Addr) (n v : Nat) : (s.store a n v).line = s.line := by
  simp [State.store]
@[simp] theorem State.store_sub (s : State) (a : Addr) (n v : Nat) : (s.store a n v).sub = s.sub := by
  simp [State.store]
@[simp] theorem State.store_phase (s : State) (a : Addr) (n v : Nat) : (s.store a n v).phase = s.phase := by
  simp [State.store]
@[simp] theorem State.store_frame (s : State) (a : Addr) (n v : Nat) : (s.store a n v).frame = s.frame := by
  simp [State.store]
@[simp] theorem State.store_synced (s : State) (a : Addr) (n v : Nat) : (s.store a n v).synced = s.synced := by
  simp [State.store]
@[simp] theorem State.store_armed (s : State) (a : Addr) (n v : Nat) : (s.store a n v).armed = s.armed := by
  simp [State.store]
@[simp] theorem State.store_ldpend (s : State) (a : Addr) (n v : Nat) : (s.store a n v).ldpend = s.ldpend := by
  simp [State.store]
@[simp] theorem State.store_vsync (s : State) (a : Addr) (n v : Nat) : (s.store a n v).vsync = s.vsync := by
  simp [State.store]
@[simp] theorem State.store_vpol (s : State) (a : Addr) (n v : Nat) : (s.store a n v).vpol = s.vpol := by
  simp [State.store]
@[simp] theorem State.store_cslot0 (s : State) (a : Addr) (n v : Nat) : (s.store a n v).cslot0 = s.cslot0 := by
  simp [State.store]
@[simp] theorem State.store_cslot1 (s : State) (a : Addr) (n v : Nat) : (s.store a n v).cslot1 = s.cslot1 := by
  simp [State.store]
@[simp] theorem State.store_win (s : State) (a : Addr) (n v : Nat) : (s.store a n v).win = s.win := by
  simp [State.store]
@[simp] theorem State.store_status (s : State) (a : Addr) (n v : Nat) : (s.store a n v).status = s.status := by
  simp [State.store]
@[simp] theorem State.store_result (s : State) (a : Addr) (n v : Nat) : (s.store a n v).result = s.result := by
  simp [State.store]
@[simp] theorem State.store_args (s : State) (a : Addr) (n v : Nat) : (s.store a n v).args = s.args := by
  simp [State.store]
@[simp] theorem State.store_cfg (s : State) (a : Addr) (n v : Nat) : (s.store a n v).cfg = s.cfg := by
  simp [State.store]
@[simp] theorem State.store_fault (s : State) (a : Addr) (n v : Nat) : (s.store a n v).fault = s.fault := by
  simp [State.store]
@[simp] theorem State.store_pwm (s : State) (a : Addr) (n v : Nat) : (s.store a n v).pwm = s.pwm := by
  simp [State.store]
@[simp] theorem State.store_lt (s : State) (a : Addr) (n v : Nat) : (s.store a n v).lt = s.lt := by
  simp [State.store]
@[simp] theorem State.store_spi (s : State) (a : Addr) (n v : Nat) : (s.store a n v).spi = s.spi := by
  simp [State.store]
@[simp] theorem State.store_port (s : State) (a : Addr) (n v : Nat) : (s.store a n v).port = s.port := by
  simp [State.store]
@[simp] theorem State.store_gpio (s : State) (a : Addr) (n v : Nat) : (s.store a n v).gpio = s.gpio := by
  simp [State.store]
@[simp] theorem State.store_nvic (s : State) (a : Addr) (n v : Nat) : (s.store a n v).nvic = s.nvic := by
  simp [State.store]
@[simp] theorem State.store_dmaFirst (s : State) (a : Addr) (n v : Nat) : (s.store a n v).dmaFirst = s.dmaFirst := by
  simp [State.store]
@[simp] theorem State.store_sleep (s : State) (a : Addr) (n v : Nat) : (s.store a n v).sleep = s.sleep := by
  simp [State.store]
@[simp] theorem State.store_inbox (s : State) (a : Addr) (n v : Nat) : (s.store a n v).inbox = s.inbox := by
  simp [State.store]
@[simp] theorem State.store_waiting (s : State) (a : Addr) (n v : Nat) : (s.store a n v).waiting = s.waiting := by
  simp [State.store]
@[simp] theorem State.store_busData (s : State) (a : Addr) (n v : Nat) : (s.store a n v).busData = s.busData := by
  simp [State.store]
@[simp] theorem State.store_lastSent (s : State) (a : Addr) (n v : Nat) : (s.store a n v).lastSent = s.lastSent := by
  simp [State.store]
@[simp] theorem State.store_draws (s : State) (a : Addr) (n v : Nat) : (s.store a n v).draws = s.draws := by
  simp [State.store]
/-! `raiseEvent` -/
@[simp] theorem State.raiseEvent_life (s : State) (q : Source) : (s.raiseEvent q).life = s.life := by
  unfold State.raiseEvent; split <;> [(split <;> rfl); rfl]
@[simp] theorem State.raiseEvent_mode (s : State) (q : Source) : (s.raiseEvent q).mode = s.mode := by
  unfold State.raiseEvent; split <;> [(split <;> rfl); rfl]
@[simp] theorem State.raiseEvent_tim (s : State) (q : Source) : (s.raiseEvent q).tim = s.tim := by
  unfold State.raiseEvent; split <;> [(split <;> rfl); rfl]
@[simp] theorem State.raiseEvent_fb (s : State) (q : Source) : (s.raiseEvent q).fb = s.fb := by
  unfold State.raiseEvent; split <;> [(split <;> rfl); rfl]
@[simp] theorem State.raiseEvent_line (s : State) (q : Source) : (s.raiseEvent q).line = s.line := by
  unfold State.raiseEvent; split <;> [(split <;> rfl); rfl]
@[simp] theorem State.raiseEvent_sub (s : State) (q : Source) : (s.raiseEvent q).sub = s.sub := by
  unfold State.raiseEvent; split <;> [(split <;> rfl); rfl]
@[simp] theorem State.raiseEvent_phase (s : State) (q : Source) : (s.raiseEvent q).phase = s.phase := by
  unfold State.raiseEvent; split <;> [(split <;> rfl); rfl]
@[simp] theorem State.raiseEvent_frame (s : State) (q : Source) : (s.raiseEvent q).frame = s.frame := by
  unfold State.raiseEvent; split <;> [(split <;> rfl); rfl]
@[simp] theorem State.raiseEvent_synced (s : State) (q : Source) : (s.raiseEvent q).synced = s.synced := by
  unfold State.raiseEvent; split <;> [(split <;> rfl); rfl]
@[simp] theorem State.raiseEvent_armed (s : State) (q : Source) : (s.raiseEvent q).armed = s.armed := by
  unfold State.raiseEvent; split <;> [(split <;> rfl); rfl]
@[simp] theorem State.raiseEvent_ldpend (s : State) (q : Source) : (s.raiseEvent q).ldpend = s.ldpend := by
  unfold State.raiseEvent; split <;> [(split <;> rfl); rfl]
@[simp] theorem State.raiseEvent_vsync (s : State) (q : Source) : (s.raiseEvent q).vsync = s.vsync := by
  unfold State.raiseEvent; split <;> [(split <;> rfl); rfl]
@[simp] theorem State.raiseEvent_vpol (s : State) (q : Source) : (s.raiseEvent q).vpol = s.vpol := by
  unfold State.raiseEvent; split <;> [(split <;> rfl); rfl]
@[simp] theorem State.raiseEvent_cslot0 (s : State) (q : Source) : (s.raiseEvent q).cslot0 = s.cslot0 := by
  unfold State.raiseEvent; split <;> [(split <;> rfl); rfl]
@[simp] theorem State.raiseEvent_cslot1 (s : State) (q : Source) : (s.raiseEvent q).cslot1 = s.cslot1 := by
  unfold State.raiseEvent; split <;> [(split <;> rfl); rfl]
@[simp] theorem State.raiseEvent_win (s : State) (q : Source) : (s.raiseEvent q).win = s.win := by
  unfold State.raiseEvent; split <;> [(split <;> rfl); rfl]
@[simp] theorem State.raiseEvent_status (s : State) (q : Source) : (s.raiseEvent q).status = s.status := by
  unfold State.raiseEvent; split <;> [(split <;> rfl); rfl]
@[simp] theorem State.raiseEvent_result (s : State) (q : Source) : (s.raiseEvent q).result = s.result := by
  unfold State.raiseEvent; split <;> [(split <;> rfl); rfl]
@[simp] theorem State.raiseEvent_args (s : State) (q : Source) : (s.raiseEvent q).args = s.args := by
  unfold State.raiseEvent; split <;> [(split <;> rfl); rfl]
@[simp] theorem State.raiseEvent_cfg (s : State) (q : Source) : (s.raiseEvent q).cfg = s.cfg := by
  unfold State.raiseEvent; split <;> [(split <;> rfl); rfl]
@[simp] theorem State.raiseEvent_pwm (s : State) (q : Source) : (s.raiseEvent q).pwm = s.pwm := by
  unfold State.raiseEvent; split <;> [(split <;> rfl); rfl]
@[simp] theorem State.raiseEvent_lt (s : State) (q : Source) : (s.raiseEvent q).lt = s.lt := by
  unfold State.raiseEvent; split <;> [(split <;> rfl); rfl]
@[simp] theorem State.raiseEvent_dma (s : State) (q : Source) : (s.raiseEvent q).dma = s.dma := by
  unfold State.raiseEvent; split <;> [(split <;> rfl); rfl]
@[simp] theorem State.raiseEvent_spi (s : State) (q : Source) : (s.raiseEvent q).spi = s.spi := by
  unfold State.raiseEvent; split <;> [(split <;> rfl); rfl]
@[simp] theorem State.raiseEvent_port (s : State) (q : Source) : (s.raiseEvent q).port = s.port := by
  unfold State.raiseEvent; split <;> [(split <;> rfl); rfl]
@[simp] theorem State.raiseEvent_gpio (s : State) (q : Source) : (s.raiseEvent q).gpio = s.gpio := by
  unfold State.raiseEvent; split <;> [(split <;> rfl); rfl]
@[simp] theorem State.raiseEvent_dmaFirst (s : State) (q : Source) : (s.raiseEvent q).dmaFirst = s.dmaFirst := by
  unfold State.raiseEvent; split <;> [(split <;> rfl); rfl]
@[simp] theorem State.raiseEvent_mem (s : State) (q : Source) : (s.raiseEvent q).mem = s.mem := by
  unfold State.raiseEvent; split <;> [(split <;> rfl); rfl]
@[simp] theorem State.raiseEvent_inbox (s : State) (q : Source) : (s.raiseEvent q).inbox = s.inbox := by
  unfold State.raiseEvent; split <;> [(split <;> rfl); rfl]
@[simp] theorem State.raiseEvent_waiting (s : State) (q : Source) : (s.raiseEvent q).waiting = s.waiting := by
  unfold State.raiseEvent; split <;> [(split <;> rfl); rfl]
@[simp] theorem State.raiseEvent_busData (s : State) (q : Source) : (s.raiseEvent q).busData = s.busData := by
  unfold State.raiseEvent; split <;> [(split <;> rfl); rfl]
@[simp] theorem State.raiseEvent_lastSent (s : State) (q : Source) : (s.raiseEvent q).lastSent = s.lastSent := by
  unfold State.raiseEvent; split <;> [(split <;> rfl); rfl]
@[simp] theorem State.raiseEvent_draws (s : State) (q : Source) : (s.raiseEvent q).draws = s.draws := by
  unfold State.raiseEvent; split <;> [(split <;> rfl); rfl]
@[simp] theorem State.raiseEvent_races (s : State) (q : Source) : (s.raiseEvent q).races = s.races := by
  unfold State.raiseEvent; split <;> [(split <;> rfl); rfl]
/-! `raiseIf` -/
@[simp] theorem State.raiseIf_life (s : State) (r : Bool) (q : Source) : (s.raiseIf r q).life = s.life := by
  unfold State.raiseIf; split <;> simp
@[simp] theorem State.raiseIf_mode (s : State) (r : Bool) (q : Source) : (s.raiseIf r q).mode = s.mode := by
  unfold State.raiseIf; split <;> simp
@[simp] theorem State.raiseIf_tim (s : State) (r : Bool) (q : Source) : (s.raiseIf r q).tim = s.tim := by
  unfold State.raiseIf; split <;> simp
@[simp] theorem State.raiseIf_fb (s : State) (r : Bool) (q : Source) : (s.raiseIf r q).fb = s.fb := by
  unfold State.raiseIf; split <;> simp
@[simp] theorem State.raiseIf_line (s : State) (r : Bool) (q : Source) : (s.raiseIf r q).line = s.line := by
  unfold State.raiseIf; split <;> simp
@[simp] theorem State.raiseIf_sub (s : State) (r : Bool) (q : Source) : (s.raiseIf r q).sub = s.sub := by
  unfold State.raiseIf; split <;> simp
@[simp] theorem State.raiseIf_phase (s : State) (r : Bool) (q : Source) : (s.raiseIf r q).phase = s.phase := by
  unfold State.raiseIf; split <;> simp
@[simp] theorem State.raiseIf_frame (s : State) (r : Bool) (q : Source) : (s.raiseIf r q).frame = s.frame := by
  unfold State.raiseIf; split <;> simp
@[simp] theorem State.raiseIf_synced (s : State) (r : Bool) (q : Source) : (s.raiseIf r q).synced = s.synced := by
  unfold State.raiseIf; split <;> simp
@[simp] theorem State.raiseIf_armed (s : State) (r : Bool) (q : Source) : (s.raiseIf r q).armed = s.armed := by
  unfold State.raiseIf; split <;> simp
@[simp] theorem State.raiseIf_ldpend (s : State) (r : Bool) (q : Source) : (s.raiseIf r q).ldpend = s.ldpend := by
  unfold State.raiseIf; split <;> simp
@[simp] theorem State.raiseIf_vsync (s : State) (r : Bool) (q : Source) : (s.raiseIf r q).vsync = s.vsync := by
  unfold State.raiseIf; split <;> simp
@[simp] theorem State.raiseIf_vpol (s : State) (r : Bool) (q : Source) : (s.raiseIf r q).vpol = s.vpol := by
  unfold State.raiseIf; split <;> simp
@[simp] theorem State.raiseIf_cslot0 (s : State) (r : Bool) (q : Source) : (s.raiseIf r q).cslot0 = s.cslot0 := by
  unfold State.raiseIf; split <;> simp
@[simp] theorem State.raiseIf_cslot1 (s : State) (r : Bool) (q : Source) : (s.raiseIf r q).cslot1 = s.cslot1 := by
  unfold State.raiseIf; split <;> simp
@[simp] theorem State.raiseIf_win (s : State) (r : Bool) (q : Source) : (s.raiseIf r q).win = s.win := by
  unfold State.raiseIf; split <;> simp
@[simp] theorem State.raiseIf_status (s : State) (r : Bool) (q : Source) : (s.raiseIf r q).status = s.status := by
  unfold State.raiseIf; split <;> simp
@[simp] theorem State.raiseIf_result (s : State) (r : Bool) (q : Source) : (s.raiseIf r q).result = s.result := by
  unfold State.raiseIf; split <;> simp
@[simp] theorem State.raiseIf_args (s : State) (r : Bool) (q : Source) : (s.raiseIf r q).args = s.args := by
  unfold State.raiseIf; split <;> simp
@[simp] theorem State.raiseIf_cfg (s : State) (r : Bool) (q : Source) : (s.raiseIf r q).cfg = s.cfg := by
  unfold State.raiseIf; split <;> simp
@[simp] theorem State.raiseIf_pwm (s : State) (r : Bool) (q : Source) : (s.raiseIf r q).pwm = s.pwm := by
  unfold State.raiseIf; split <;> simp
@[simp] theorem State.raiseIf_lt (s : State) (r : Bool) (q : Source) : (s.raiseIf r q).lt = s.lt := by
  unfold State.raiseIf; split <;> simp
@[simp] theorem State.raiseIf_dma (s : State) (r : Bool) (q : Source) : (s.raiseIf r q).dma = s.dma := by
  unfold State.raiseIf; split <;> simp
@[simp] theorem State.raiseIf_spi (s : State) (r : Bool) (q : Source) : (s.raiseIf r q).spi = s.spi := by
  unfold State.raiseIf; split <;> simp
@[simp] theorem State.raiseIf_port (s : State) (r : Bool) (q : Source) : (s.raiseIf r q).port = s.port := by
  unfold State.raiseIf; split <;> simp
@[simp] theorem State.raiseIf_gpio (s : State) (r : Bool) (q : Source) : (s.raiseIf r q).gpio = s.gpio := by
  unfold State.raiseIf; split <;> simp
@[simp] theorem State.raiseIf_dmaFirst (s : State) (r : Bool) (q : Source) : (s.raiseIf r q).dmaFirst = s.dmaFirst := by
  unfold State.raiseIf; split <;> simp
@[simp] theorem State.raiseIf_mem (s : State) (r : Bool) (q : Source) : (s.raiseIf r q).mem = s.mem := by
  unfold State.raiseIf; split <;> simp
@[simp] theorem State.raiseIf_inbox (s : State) (r : Bool) (q : Source) : (s.raiseIf r q).inbox = s.inbox := by
  unfold State.raiseIf; split <;> simp
@[simp] theorem State.raiseIf_waiting (s : State) (r : Bool) (q : Source) : (s.raiseIf r q).waiting = s.waiting := by
  unfold State.raiseIf; split <;> simp
@[simp] theorem State.raiseIf_busData (s : State) (r : Bool) (q : Source) : (s.raiseIf r q).busData = s.busData := by
  unfold State.raiseIf; split <;> simp
@[simp] theorem State.raiseIf_lastSent (s : State) (r : Bool) (q : Source) : (s.raiseIf r q).lastSent = s.lastSent := by
  unfold State.raiseIf; split <;> simp
@[simp] theorem State.raiseIf_draws (s : State) (r : Bool) (q : Source) : (s.raiseIf r q).draws = s.draws := by
  unfold State.raiseIf; split <;> simp
@[simp] theorem State.raiseIf_races (s : State) (r : Bool) (q : Source) : (s.raiseIf r q).races = s.races := by
  unfold State.raiseIf; split <;> simp
/-! `resolveWait` -/
@[simp] theorem State.resolveWait_life (s : State) : (s.resolveWait).life = s.life := by
  unfold State.resolveWait; split <;> [rfl; (split <;> rfl)]
@[simp] theorem State.resolveWait_mode (s : State) : (s.resolveWait).mode = s.mode := by
  unfold State.resolveWait; split <;> [rfl; (split <;> rfl)]
@[simp] theorem State.resolveWait_tim (s : State) : (s.resolveWait).tim = s.tim := by
  unfold State.resolveWait; split <;> [rfl; (split <;> rfl)]
@[simp] theorem State.resolveWait_fb (s : State) : (s.resolveWait).fb = s.fb := by
  unfold State.resolveWait; split <;> [rfl; (split <;> rfl)]
@[simp] theorem State.resolveWait_line (s : State) : (s.resolveWait).line = s.line := by
  unfold State.resolveWait; split <;> [rfl; (split <;> rfl)]
@[simp] theorem State.resolveWait_sub (s : State) : (s.resolveWait).sub = s.sub := by
  unfold State.resolveWait; split <;> [rfl; (split <;> rfl)]
@[simp] theorem State.resolveWait_phase (s : State) : (s.resolveWait).phase = s.phase := by
  unfold State.resolveWait; split <;> [rfl; (split <;> rfl)]
@[simp] theorem State.resolveWait_frame (s : State) : (s.resolveWait).frame = s.frame := by
  unfold State.resolveWait; split <;> [rfl; (split <;> rfl)]
@[simp] theorem State.resolveWait_synced (s : State) : (s.resolveWait).synced = s.synced := by
  unfold State.resolveWait; split <;> [rfl; (split <;> rfl)]
@[simp] theorem State.resolveWait_armed (s : State) : (s.resolveWait).armed = s.armed := by
  unfold State.resolveWait; split <;> [rfl; (split <;> rfl)]
@[simp] theorem State.resolveWait_ldpend (s : State) : (s.resolveWait).ldpend = s.ldpend := by
  unfold State.resolveWait; split <;> [rfl; (split <;> rfl)]
@[simp] theorem State.resolveWait_vsync (s : State) : (s.resolveWait).vsync = s.vsync := by
  unfold State.resolveWait; split <;> [rfl; (split <;> rfl)]
@[simp] theorem State.resolveWait_vpol (s : State) : (s.resolveWait).vpol = s.vpol := by
  unfold State.resolveWait; split <;> [rfl; (split <;> rfl)]
@[simp] theorem State.resolveWait_cslot0 (s : State) : (s.resolveWait).cslot0 = s.cslot0 := by
  unfold State.resolveWait; split <;> [rfl; (split <;> rfl)]
@[simp] theorem State.resolveWait_cslot1 (s : State) : (s.resolveWait).cslot1 = s.cslot1 := by
  unfold State.resolveWait; split <;> [rfl; (split <;> rfl)]
@[simp] theorem State.resolveWait_win (s : State) : (s.resolveWait).win = s.win := by
  unfold State.resolveWait; split <;> [rfl; (split <;> rfl)]
@[simp] theorem State.resolveWait_result (s : State) : (s.resolveWait).result = s.result := by
  unfold State.resolveWait; split <;> [rfl; (split <;> rfl)]
@[simp] theorem State.resolveWait_args (s : State) : (s.resolveWait).args = s.args := by
  unfold State.resolveWait; split <;> [rfl; (split <;> rfl)]
@[simp] theorem State.resolveWait_cfg (s : State) : (s.resolveWait).cfg = s.cfg := by
  unfold State.resolveWait; split <;> [rfl; (split <;> rfl)]
@[simp] theorem State.resolveWait_fault (s : State) : (s.resolveWait).fault = s.fault := by
  unfold State.resolveWait; split <;> [rfl; (split <;> rfl)]
@[simp] theorem State.resolveWait_pwm (s : State) : (s.resolveWait).pwm = s.pwm := by
  unfold State.resolveWait; split <;> [rfl; (split <;> rfl)]
@[simp] theorem State.resolveWait_lt (s : State) : (s.resolveWait).lt = s.lt := by
  unfold State.resolveWait; split <;> [rfl; (split <;> rfl)]
@[simp] theorem State.resolveWait_dma (s : State) : (s.resolveWait).dma = s.dma := by
  unfold State.resolveWait; split <;> [rfl; (split <;> rfl)]
@[simp] theorem State.resolveWait_spi (s : State) : (s.resolveWait).spi = s.spi := by
  unfold State.resolveWait; split <;> [rfl; (split <;> rfl)]
@[simp] theorem State.resolveWait_port (s : State) : (s.resolveWait).port = s.port := by
  unfold State.resolveWait; split <;> [rfl; (split <;> rfl)]
@[simp] theorem State.resolveWait_gpio (s : State) : (s.resolveWait).gpio = s.gpio := by
  unfold State.resolveWait; split <;> [rfl; (split <;> rfl)]
@[simp] theorem State.resolveWait_nvic (s : State) : (s.resolveWait).nvic = s.nvic := by
  unfold State.resolveWait; split <;> [rfl; (split <;> rfl)]
@[simp] theorem State.resolveWait_dmaFirst (s : State) : (s.resolveWait).dmaFirst = s.dmaFirst := by
  unfold State.resolveWait; split <;> [rfl; (split <;> rfl)]
@[simp] theorem State.resolveWait_sleep (s : State) : (s.resolveWait).sleep = s.sleep := by
  unfold State.resolveWait; split <;> [rfl; (split <;> rfl)]
@[simp] theorem State.resolveWait_mem (s : State) : (s.resolveWait).mem = s.mem := by
  unfold State.resolveWait; split <;> [rfl; (split <;> rfl)]
@[simp] theorem State.resolveWait_inbox (s : State) : (s.resolveWait).inbox = s.inbox := by
  unfold State.resolveWait; split <;> [rfl; (split <;> rfl)]
@[simp] theorem State.resolveWait_busData (s : State) : (s.resolveWait).busData = s.busData := by
  unfold State.resolveWait; split <;> [rfl; (split <;> rfl)]
@[simp] theorem State.resolveWait_lastSent (s : State) : (s.resolveWait).lastSent = s.lastSent := by
  unfold State.resolveWait; split <;> [rfl; (split <;> rfl)]
@[simp] theorem State.resolveWait_draws (s : State) : (s.resolveWait).draws = s.draws := by
  unfold State.resolveWait; split <;> [rfl; (split <;> rfl)]
@[simp] theorem State.resolveWait_races (s : State) : (s.resolveWait).races = s.races := by
  unfold State.resolveWait; split <;> [rfl; (split <;> rfl)]
/-! `leaveHandler` -/
@[simp] theorem State.leaveHandler_life (s : State) : (s.leaveHandler).life = s.life := by
  simp [State.leaveHandler]
@[simp] theorem State.leaveHandler_mode (s : State) : (s.leaveHandler).mode = s.mode := by
  simp [State.leaveHandler]
@[simp] theorem State.leaveHandler_tim (s : State) : (s.leaveHandler).tim = s.tim := by
  simp [State.leaveHandler]
@[simp] theorem State.leaveHandler_fb (s : State) : (s.leaveHandler).fb = s.fb := by
  simp [State.leaveHandler]
@[simp] theorem State.leaveHandler_line (s : State) : (s.leaveHandler).line = s.line := by
  simp [State.leaveHandler]
@[simp] theorem State.leaveHandler_sub (s : State) : (s.leaveHandler).sub = s.sub := by
  simp [State.leaveHandler]
@[simp] theorem State.leaveHandler_phase (s : State) : (s.leaveHandler).phase = s.phase := by
  simp [State.leaveHandler]
@[simp] theorem State.leaveHandler_frame (s : State) : (s.leaveHandler).frame = s.frame := by
  simp [State.leaveHandler]
@[simp] theorem State.leaveHandler_synced (s : State) : (s.leaveHandler).synced = s.synced := by
  simp [State.leaveHandler]
@[simp] theorem State.leaveHandler_armed (s : State) : (s.leaveHandler).armed = s.armed := by
  simp [State.leaveHandler]
@[simp] theorem State.leaveHandler_ldpend (s : State) : (s.leaveHandler).ldpend = s.ldpend := by
  simp [State.leaveHandler]
@[simp] theorem State.leaveHandler_vsync (s : State) : (s.leaveHandler).vsync = s.vsync := by
  simp [State.leaveHandler]
@[simp] theorem State.leaveHandler_vpol (s : State) : (s.leaveHandler).vpol = s.vpol := by
  simp [State.leaveHandler]
@[simp] theorem State.leaveHandler_cslot0 (s : State) : (s.leaveHandler).cslot0 = s.cslot0 := by
  simp [State.leaveHandler]
@[simp] theorem State.leaveHandler_cslot1 (s : State) : (s.leaveHandler).cslot1 = s.cslot1 := by
  simp [State.leaveHandler]
@[simp] theorem State.leaveHandler_win (s : State) : (s.leaveHandler).win = s.win := by
  simp [State.leaveHandler]
@[simp] theorem State.leaveHandler_result (s : State) : (s.leaveHandler).result = s.result := by
  simp [State.leaveHandler]
@[simp] theorem State.leaveHandler_args (s : State) : (s.leaveHandler).args = s.args := by
  simp [State.leaveHandler]
@[simp] theorem State.leaveHandler_cfg (s : State) : (s.leaveHandler).cfg = s.cfg := by
  simp [State.leaveHandler]
@[simp] theorem State.leaveHandler_fault (s : State) : (s.leaveHandler).fault = s.fault := by
  simp [State.leaveHandler]
@[simp] theorem State.leaveHandler_pwm (s : State) : (s.leaveHandler).pwm = s.pwm := by
  simp [State.leaveHandler]
@[simp] theorem State.leaveHandler_lt (s : State) : (s.leaveHandler).lt = s.lt := by
  simp [State.leaveHandler]
@[simp] theorem State.leaveHandler_dma (s : State) : (s.leaveHandler).dma = s.dma := by
  simp [State.leaveHandler]
@[simp] theorem State.leaveHandler_spi (s : State) : (s.leaveHandler).spi = s.spi := by
  simp [State.leaveHandler]
@[simp] theorem State.leaveHandler_port (s : State) : (s.leaveHandler).port = s.port := by
  simp [State.leaveHandler]
@[simp] theorem State.leaveHandler_gpio (s : State) : (s.leaveHandler).gpio = s.gpio := by
  simp [State.leaveHandler]
@[simp] theorem State.leaveHandler_nvic (s : State) : (s.leaveHandler).nvic = s.nvic := by
  simp [State.leaveHandler]
@[simp] theorem State.leaveHandler_dmaFirst (s : State) : (s.leaveHandler).dmaFirst = s.dmaFirst := by
  simp [State.leaveHandler]
@[simp] theorem State.leaveHandler_sleep (s : State) : (s.leaveHandler).sleep = s.sleep := by
  simp [State.leaveHandler]
@[simp] theorem State.leaveHandler_mem (s : State) : (s.leaveHandler).mem = s.mem := by
  simp [State.leaveHandler]
@[simp] theorem State.leaveHandler_inbox (s : State) : (s.leaveHandler).inbox = s.inbox := by
  simp [State.leaveHandler]
@[simp] theorem State.leaveHandler_busData (s : State) : (s.leaveHandler).busData = s.busData := by
  simp [State.leaveHandler]
@[simp] theorem State.leaveHandler_lastSent (s : State) : (s.leaveHandler).lastSent = s.lastSent := by
  simp [State.leaveHandler]
@[simp] theorem State.leaveHandler_draws (s : State) : (s.leaveHandler).draws = s.draws := by
  simp [State.leaveHandler]
@[simp] theorem State.leaveHandler_races (s : State) : (s.leaveHandler).races = s.races := by
  simp [State.leaveHandler]
/-! `tickPwm` -/
@[simp] theorem State.tickPwm_life (s : State) : (s.tickPwm).life = s.life := by
  unfold State.tickPwm; split <;> rfl
@[simp] theorem State.tickPwm_mode (s : State) : (s.tickPwm).mode = s.mode := by
  unfold State.tickPwm; split <;> rfl
@[simp] theorem State.tickPwm_tim (s : State) : (s.tickPwm).tim = s.tim := by
  unfold State.tickPwm; split <;> rfl
@[simp] theorem State.tickPwm_fb (s : State) : (s.tickPwm).fb = s.fb := by
  unfold State.tickPwm; split <;> rfl
@[simp] theorem State.tickPwm_line (s : State) : (s.tickPwm).line = s.line := by
  unfold State.tickPwm; split <;> rfl
@[simp] theorem State.tickPwm_sub (s : State) : (s.tickPwm).sub = s.sub := by
  unfold State.tickPwm; split <;> rfl
@[simp] theorem State.tickPwm_phase (s : State) : (s.tickPwm).phase = s.phase := by
  unfold State.tickPwm; split <;> rfl
@[simp] theorem State.tickPwm_frame (s : State) : (s.tickPwm).frame = s.frame := by
  unfold State.tickPwm; split <;> rfl
@[simp] theorem State.tickPwm_synced (s : State) : (s.tickPwm).synced = s.synced := by
  unfold State.tickPwm; split <;> rfl
@[simp] theorem State.tickPwm_armed (s : State) : (s.tickPwm).armed = s.armed := by
  unfold State.tickPwm; split <;> rfl
@[simp] theorem State.tickPwm_ldpend (s : State) : (s.tickPwm).ldpend = s.ldpend := by
  unfold State.tickPwm; split <;> rfl
@[simp] theorem State.tickPwm_vsync (s : State) : (s.tickPwm).vsync = s.vsync := by
  unfold State.tickPwm; split <;> rfl
@[simp] theorem State.tickPwm_vpol (s : State) : (s.tickPwm).vpol = s.vpol := by
  unfold State.tickPwm; split <;> rfl
@[simp] theorem State.tickPwm_cslot0 (s : State) : (s.tickPwm).cslot0 = s.cslot0 := by
  unfold State.tickPwm; split <;> rfl
@[simp] theorem State.tickPwm_cslot1 (s : State) : (s.tickPwm).cslot1 = s.cslot1 := by
  unfold State.tickPwm; split <;> rfl
@[simp] theorem State.tickPwm_win (s : State) : (s.tickPwm).win = s.win := by
  unfold State.tickPwm; split <;> rfl
@[simp] theorem State.tickPwm_status (s : State) : (s.tickPwm).status = s.status := by
  unfold State.tickPwm; split <;> rfl
@[simp] theorem State.tickPwm_result (s : State) : (s.tickPwm).result = s.result := by
  unfold State.tickPwm; split <;> rfl
@[simp] theorem State.tickPwm_args (s : State) : (s.tickPwm).args = s.args := by
  unfold State.tickPwm; split <;> rfl
@[simp] theorem State.tickPwm_cfg (s : State) : (s.tickPwm).cfg = s.cfg := by
  unfold State.tickPwm; split <;> rfl
@[simp] theorem State.tickPwm_fault (s : State) : (s.tickPwm).fault = s.fault := by
  unfold State.tickPwm; split <;> rfl
@[simp] theorem State.tickPwm_lt (s : State) : (s.tickPwm).lt = s.lt := by
  unfold State.tickPwm; split <;> rfl
@[simp] theorem State.tickPwm_dma (s : State) : (s.tickPwm).dma = s.dma := by
  unfold State.tickPwm; split <;> rfl
@[simp] theorem State.tickPwm_spi (s : State) : (s.tickPwm).spi = s.spi := by
  unfold State.tickPwm; split <;> rfl
@[simp] theorem State.tickPwm_port (s : State) : (s.tickPwm).port = s.port := by
  unfold State.tickPwm; split <;> rfl
@[simp] theorem State.tickPwm_gpio (s : State) : (s.tickPwm).gpio = s.gpio := by
  unfold State.tickPwm; split <;> rfl
@[simp] theorem State.tickPwm_nvic (s : State) : (s.tickPwm).nvic = s.nvic := by
  unfold State.tickPwm; split <;> rfl
@[simp] theorem State.tickPwm_dmaFirst (s : State) : (s.tickPwm).dmaFirst = s.dmaFirst := by
  unfold State.tickPwm; split <;> rfl
@[simp] theorem State.tickPwm_sleep (s : State) : (s.tickPwm).sleep = s.sleep := by
  unfold State.tickPwm; split <;> rfl
@[simp] theorem State.tickPwm_mem (s : State) : (s.tickPwm).mem = s.mem := by
  unfold State.tickPwm; split <;> rfl
@[simp] theorem State.tickPwm_inbox (s : State) : (s.tickPwm).inbox = s.inbox := by
  unfold State.tickPwm; split <;> rfl
@[simp] theorem State.tickPwm_waiting (s : State) : (s.tickPwm).waiting = s.waiting := by
  unfold State.tickPwm; split <;> rfl
@[simp] theorem State.tickPwm_busData (s : State) : (s.tickPwm).busData = s.busData := by
  unfold State.tickPwm; split <;> rfl
@[simp] theorem State.tickPwm_lastSent (s : State) : (s.tickPwm).lastSent = s.lastSent := by
  unfold State.tickPwm; split <;> rfl
@[simp] theorem State.tickPwm_draws (s : State) : (s.tickPwm).draws = s.draws := by
  unfold State.tickPwm; split <;> rfl
@[simp] theorem State.tickPwm_races (s : State) : (s.tickPwm).races = s.races := by
  unfold State.tickPwm; split <;> rfl
/-! `tickLt` -/
@[simp] theorem State.tickLt_life (s : State) : (s.tickLt).life = s.life := by
  unfold State.tickLt; split <;> rfl
@[simp] theorem State.tickLt_mode (s : State) : (s.tickLt).mode = s.mode := by
  unfold State.tickLt; split <;> rfl
@[simp] theorem State.tickLt_tim (s : State) : (s.tickLt).tim = s.tim := by
  unfold State.tickLt; split <;> rfl
@[simp] theorem State.tickLt_fb (s : State) : (s.tickLt).fb = s.fb := by
  unfold State.tickLt; split <;> rfl
@[simp] theorem State.tickLt_line (s : State) : (s.tickLt).line = s.line := by
  unfold State.tickLt; split <;> rfl
@[simp] theorem State.tickLt_sub (s : State) : (s.tickLt).sub = s.sub := by
  unfold State.tickLt; split <;> rfl
@[simp] theorem State.tickLt_phase (s : State) : (s.tickLt).phase = s.phase := by
  unfold State.tickLt; split <;> rfl
@[simp] theorem State.tickLt_frame (s : State) : (s.tickLt).frame = s.frame := by
  unfold State.tickLt; split <;> rfl
@[simp] theorem State.tickLt_synced (s : State) : (s.tickLt).synced = s.synced := by
  unfold State.tickLt; split <;> rfl
@[simp] theorem State.tickLt_armed (s : State) : (s.tickLt).armed = s.armed := by
  unfold State.tickLt; split <;> rfl
@[simp] theorem State.tickLt_ldpend (s : State) : (s.tickLt).ldpend = s.ldpend := by
  unfold State.tickLt; split <;> rfl
@[simp] theorem State.tickLt_vsync (s : State) : (s.tickLt).vsync = s.vsync := by
  unfold State.tickLt; split <;> rfl
@[simp] theorem State.tickLt_vpol (s : State) : (s.tickLt).vpol = s.vpol := by
  unfold State.tickLt; split <;> rfl
@[simp] theorem State.tickLt_cslot0 (s : State) : (s.tickLt).cslot0 = s.cslot0 := by
  unfold State.tickLt; split <;> rfl
@[simp] theorem State.tickLt_cslot1 (s : State) : (s.tickLt).cslot1 = s.cslot1 := by
  unfold State.tickLt; split <;> rfl
@[simp] theorem State.tickLt_win (s : State) : (s.tickLt).win = s.win := by
  unfold State.tickLt; split <;> rfl
@[simp] theorem State.tickLt_status (s : State) : (s.tickLt).status = s.status := by
  unfold State.tickLt; split <;> rfl
@[simp] theorem State.tickLt_result (s : State) : (s.tickLt).result = s.result := by
  unfold State.tickLt; split <;> rfl
@[simp] theorem State.tickLt_args (s : State) : (s.tickLt).args = s.args := by
  unfold State.tickLt; split <;> rfl
@[simp] theorem State.tickLt_cfg (s : State) : (s.tickLt).cfg = s.cfg := by
  unfold State.tickLt; split <;> rfl
@[simp] theorem State.tickLt_fault (s : State) : (s.tickLt).fault = s.fault := by
  unfold State.tickLt; split <;> rfl
@[simp] theorem State.tickLt_pwm (s : State) : (s.tickLt).pwm = s.pwm := by
  unfold State.tickLt; split <;> rfl
@[simp] theorem State.tickLt_dma (s : State) : (s.tickLt).dma = s.dma := by
  unfold State.tickLt; split <;> rfl
@[simp] theorem State.tickLt_spi (s : State) : (s.tickLt).spi = s.spi := by
  unfold State.tickLt; split <;> rfl
@[simp] theorem State.tickLt_port (s : State) : (s.tickLt).port = s.port := by
  unfold State.tickLt; split <;> rfl
@[simp] theorem State.tickLt_gpio (s : State) : (s.tickLt).gpio = s.gpio := by
  unfold State.tickLt; split <;> rfl
@[simp] theorem State.tickLt_nvic (s : State) : (s.tickLt).nvic = s.nvic := by
  unfold State.tickLt; split <;> rfl
@[simp] theorem State.tickLt_dmaFirst (s : State) : (s.tickLt).dmaFirst = s.dmaFirst := by
  unfold State.tickLt; split <;> rfl
@[simp] theorem State.tickLt_sleep (s : State) : (s.tickLt).sleep = s.sleep := by
  unfold State.tickLt; split <;> rfl
@[simp] theorem State.tickLt_mem (s : State) : (s.tickLt).mem = s.mem := by
  unfold State.tickLt; split <;> rfl
@[simp] theorem State.tickLt_inbox (s : State) : (s.tickLt).inbox = s.inbox := by
  unfold State.tickLt; split <;> rfl
@[simp] theorem State.tickLt_waiting (s : State) : (s.tickLt).waiting = s.waiting := by
  unfold State.tickLt; split <;> rfl
@[simp] theorem State.tickLt_busData (s : State) : (s.tickLt).busData = s.busData := by
  unfold State.tickLt; split <;> rfl
@[simp] theorem State.tickLt_lastSent (s : State) : (s.tickLt).lastSent = s.lastSent := by
  unfold State.tickLt; split <;> rfl
@[simp] theorem State.tickLt_draws (s : State) : (s.tickLt).draws = s.draws := by
  unfold State.tickLt; split <;> rfl
@[simp] theorem State.tickLt_races (s : State) : (s.tickLt).races = s.races := by
  unfold State.tickLt; split <;> rfl
/-! `tickDma` -/
@[simp] theorem State.tickDma_life (s : State) : (s.tickDma).life = s.life := by
  unfold State.tickDma; split <;> [rfl; (split <;> rfl)]
@[simp] theorem State.tickDma_mode (s : State) : (s.tickDma).mode = s.mode := by
  unfold State.tickDma; split <;> [rfl; (split <;> rfl)]
@[simp] theorem State.tickDma_tim (s : State) : (s.tickDma).tim = s.tim := by
  unfold State.tickDma; split <;> [rfl; (split <;> rfl)]
@[simp] theorem State.tickDma_fb (s : State) : (s.tickDma).fb = s.fb := by
  unfold State.tickDma; split <;> [rfl; (split <;> rfl)]
@[simp] theorem State.tickDma_line (s : State) : (s.tickDma).line = s.line := by
  unfold State.tickDma; split <;> [rfl; (split <;> rfl)]
@[simp] theorem State.tickDma_sub (s : State) : (s.tickDma).sub = s.sub := by
  unfold State.tickDma; split <;> [rfl; (split <;> rfl)]
@[simp] theorem State.tickDma_phase (s : State) : (s.tickDma).phase = s.phase := by
  unfold State.tickDma; split <;> [rfl; (split <;> rfl)]
@[simp] theorem State.tickDma_frame (s : State) : (s.tickDma).frame = s.frame := by
  unfold State.tickDma; split <;> [rfl; (split <;> rfl)]
@[simp] theorem State.tickDma_synced (s : State) : (s.tickDma).synced = s.synced := by
  unfold State.tickDma; split <;> [rfl; (split <;> rfl)]
@[simp] theorem State.tickDma_armed (s : State) : (s.tickDma).armed = s.armed := by
  unfold State.tickDma; split <;> [rfl; (split <;> rfl)]
@[simp] theorem State.tickDma_ldpend (s : State) : (s.tickDma).ldpend = s.ldpend := by
  unfold State.tickDma; split <;> [rfl; (split <;> rfl)]
@[simp] theorem State.tickDma_vsync (s : State) : (s.tickDma).vsync = s.vsync := by
  unfold State.tickDma; split <;> [rfl; (split <;> rfl)]
@[simp] theorem State.tickDma_vpol (s : State) : (s.tickDma).vpol = s.vpol := by
  unfold State.tickDma; split <;> [rfl; (split <;> rfl)]
@[simp] theorem State.tickDma_cslot0 (s : State) : (s.tickDma).cslot0 = s.cslot0 := by
  unfold State.tickDma; split <;> [rfl; (split <;> rfl)]
@[simp] theorem State.tickDma_cslot1 (s : State) : (s.tickDma).cslot1 = s.cslot1 := by
  unfold State.tickDma; split <;> [rfl; (split <;> rfl)]
@[simp] theorem State.tickDma_win (s : State) : (s.tickDma).win = s.win := by
  unfold State.tickDma; split <;> [rfl; (split <;> rfl)]
@[simp] theorem State.tickDma_status (s : State) : (s.tickDma).status = s.status := by
  unfold State.tickDma; split <;> [rfl; (split <;> rfl)]
@[simp] theorem State.tickDma_result (s : State) : (s.tickDma).result = s.result := by
  unfold State.tickDma; split <;> [rfl; (split <;> rfl)]
@[simp] theorem State.tickDma_args (s : State) : (s.tickDma).args = s.args := by
  unfold State.tickDma; split <;> [rfl; (split <;> rfl)]
@[simp] theorem State.tickDma_cfg (s : State) : (s.tickDma).cfg = s.cfg := by
  unfold State.tickDma; split <;> [rfl; (split <;> rfl)]
@[simp] theorem State.tickDma_fault (s : State) : (s.tickDma).fault = s.fault := by
  unfold State.tickDma; split <;> [rfl; (split <;> rfl)]
@[simp] theorem State.tickDma_pwm (s : State) : (s.tickDma).pwm = s.pwm := by
  unfold State.tickDma; split <;> [rfl; (split <;> rfl)]
@[simp] theorem State.tickDma_lt (s : State) : (s.tickDma).lt = s.lt := by
  unfold State.tickDma; split <;> [rfl; (split <;> rfl)]
@[simp] theorem State.tickDma_spi (s : State) : (s.tickDma).spi = s.spi := by
  unfold State.tickDma; split <;> [rfl; (split <;> rfl)]
@[simp] theorem State.tickDma_port (s : State) : (s.tickDma).port = s.port := by
  unfold State.tickDma; split <;> [rfl; (split <;> rfl)]
@[simp] theorem State.tickDma_gpio (s : State) : (s.tickDma).gpio = s.gpio := by
  unfold State.tickDma; split <;> [rfl; (split <;> rfl)]
@[simp] theorem State.tickDma_nvic (s : State) : (s.tickDma).nvic = s.nvic := by
  unfold State.tickDma; split <;> [rfl; (split <;> rfl)]
@[simp] theorem State.tickDma_dmaFirst (s : State) : (s.tickDma).dmaFirst = s.dmaFirst := by
  unfold State.tickDma; split <;> [rfl; (split <;> rfl)]
@[simp] theorem State.tickDma_sleep (s : State) : (s.tickDma).sleep = s.sleep := by
  unfold State.tickDma; split <;> [rfl; (split <;> rfl)]
@[simp] theorem State.tickDma_mem (s : State) : (s.tickDma).mem = s.mem := by
  unfold State.tickDma; split <;> [rfl; (split <;> rfl)]
@[simp] theorem State.tickDma_inbox (s : State) : (s.tickDma).inbox = s.inbox := by
  unfold State.tickDma; split <;> [rfl; (split <;> rfl)]
@[simp] theorem State.tickDma_waiting (s : State) : (s.tickDma).waiting = s.waiting := by
  unfold State.tickDma; split <;> [rfl; (split <;> rfl)]
@[simp] theorem State.tickDma_busData (s : State) : (s.tickDma).busData = s.busData := by
  unfold State.tickDma; split <;> [rfl; (split <;> rfl)]
@[simp] theorem State.tickDma_draws (s : State) : (s.tickDma).draws = s.draws := by
  unfold State.tickDma; split <;> [rfl; (split <;> rfl)]
@[simp] theorem State.tickDma_races (s : State) : (s.tickDma).races = s.races := by
  unfold State.tickDma; split <;> [rfl; (split <;> rfl)]
/-! `tick` -/
@[simp] theorem State.tick_life (s : State) : (s.tick).life = s.life := by
  simp [State.tick]
@[simp] theorem State.tick_mode (s : State) : (s.tick).mode = s.mode := by
  simp [State.tick]
@[simp] theorem State.tick_tim (s : State) : (s.tick).tim = s.tim := by
  simp [State.tick]
@[simp] theorem State.tick_fb (s : State) : (s.tick).fb = s.fb := by
  simp [State.tick]
@[simp] theorem State.tick_line (s : State) : (s.tick).line = s.line := by
  simp [State.tick]
@[simp] theorem State.tick_sub (s : State) : (s.tick).sub = s.sub := by
  simp [State.tick]
@[simp] theorem State.tick_phase (s : State) : (s.tick).phase = s.phase := by
  simp [State.tick]
@[simp] theorem State.tick_frame (s : State) : (s.tick).frame = s.frame := by
  simp [State.tick]
@[simp] theorem State.tick_synced (s : State) : (s.tick).synced = s.synced := by
  simp [State.tick]
@[simp] theorem State.tick_armed (s : State) : (s.tick).armed = s.armed := by
  simp [State.tick]
@[simp] theorem State.tick_ldpend (s : State) : (s.tick).ldpend = s.ldpend := by
  simp [State.tick]
@[simp] theorem State.tick_vsync (s : State) : (s.tick).vsync = s.vsync := by
  simp [State.tick]
@[simp] theorem State.tick_vpol (s : State) : (s.tick).vpol = s.vpol := by
  simp [State.tick]
@[simp] theorem State.tick_cslot0 (s : State) : (s.tick).cslot0 = s.cslot0 := by
  simp [State.tick]
@[simp] theorem State.tick_cslot1 (s : State) : (s.tick).cslot1 = s.cslot1 := by
  simp [State.tick]
@[simp] theorem State.tick_win (s : State) : (s.tick).win = s.win := by
  simp [State.tick]
@[simp] theorem State.tick_status (s : State) : (s.tick).status = s.status := by
  simp [State.tick]
@[simp] theorem State.tick_result (s : State) : (s.tick).result = s.result := by
  simp [State.tick]
@[simp] theorem State.tick_args (s : State) : (s.tick).args = s.args := by
  simp [State.tick]
@[simp] theorem State.tick_cfg (s : State) : (s.tick).cfg = s.cfg := by
  simp [State.tick]
@[simp] theorem State.tick_spi (s : State) : (s.tick).spi = s.spi := by
  simp [State.tick]
@[simp] theorem State.tick_port (s : State) : (s.tick).port = s.port := by
  simp [State.tick]
@[simp] theorem State.tick_gpio (s : State) : (s.tick).gpio = s.gpio := by
  simp [State.tick]
@[simp] theorem State.tick_dmaFirst (s : State) : (s.tick).dmaFirst = s.dmaFirst := by
  simp [State.tick]
@[simp] theorem State.tick_mem (s : State) : (s.tick).mem = s.mem := by
  simp [State.tick]
@[simp] theorem State.tick_inbox (s : State) : (s.tick).inbox = s.inbox := by
  simp [State.tick]
@[simp] theorem State.tick_waiting (s : State) : (s.tick).waiting = s.waiting := by
  simp [State.tick]
@[simp] theorem State.tick_busData (s : State) : (s.tick).busData = s.busData := by
  simp [State.tick]
@[simp] theorem State.tick_draws (s : State) : (s.tick).draws = s.draws := by
  simp [State.tick]
@[simp] theorem State.tick_races (s : State) : (s.tick).races = s.races := by
  simp [State.tick]
/-! `checkReload` -/
@[simp] theorem State.checkReload_life (s : State) : (s.checkReload).life = s.life := by
  unfold State.checkReload; split <;> rfl
@[simp] theorem State.checkReload_mode (s : State) : (s.checkReload).mode = s.mode := by
  unfold State.checkReload; split <;> rfl
@[simp] theorem State.checkReload_tim (s : State) : (s.checkReload).tim = s.tim := by
  unfold State.checkReload; split <;> rfl
@[simp] theorem State.checkReload_fb (s : State) : (s.checkReload).fb = s.fb := by
  unfold State.checkReload; split <;> rfl
@[simp] theorem State.checkReload_line (s : State) : (s.checkReload).line = s.line := by
  unfold State.checkReload; split <;> rfl
@[simp] theorem State.checkReload_sub (s : State) : (s.checkReload).sub = s.sub := by
  unfold State.checkReload; split <;> rfl
@[simp] theorem State.checkReload_phase (s : State) : (s.checkReload).phase = s.phase := by
  unfold State.checkReload; split <;> rfl
@[simp] theorem State.checkReload_frame (s : State) : (s.checkReload).frame = s.frame := by
  unfold State.checkReload; split <;> rfl
@[simp] theorem State.checkReload_synced (s : State) : (s.checkReload).synced = s.synced := by
  unfold State.checkReload; split <;> rfl
@[simp] theorem State.checkReload_armed (s : State) : (s.checkReload).armed = s.armed := by
  unfold State.checkReload; split <;> rfl
@[simp] theorem State.checkReload_ldpend (s : State) : (s.checkReload).ldpend = s.ldpend := by
  unfold State.checkReload; split <;> rfl
@[simp] theorem State.checkReload_vsync (s : State) : (s.checkReload).vsync = s.vsync := by
  unfold State.checkReload; split <;> rfl
@[simp] theorem State.checkReload_vpol (s : State) : (s.checkReload).vpol = s.vpol := by
  unfold State.checkReload; split <;> rfl
@[simp] theorem State.checkReload_cslot0 (s : State) : (s.checkReload).cslot0 = s.cslot0 := by
  unfold State.checkReload; split <;> rfl
@[simp] theorem State.checkReload_cslot1 (s : State) : (s.checkReload).cslot1 = s.cslot1 := by
  unfold State.checkReload; split <;> rfl
@[simp] theorem State.checkReload_win (s : State) : (s.checkReload).win = s.win := by
  unfold State.checkReload; split <;> rfl
@[simp] theorem State.checkReload_status (s : State) : (s.checkReload).status = s.status := by
  unfold State.checkReload; split <;> rfl
@[simp] theorem State.checkReload_result (s : State) : (s.checkReload).result = s.result := by
  unfold State.checkReload; split <;> rfl
@[simp] theorem State.checkReload_args (s : State) : (s.checkReload).args = s.args := by
  unfold State.checkReload; split <;> rfl
@[simp] theorem State.checkReload_cfg (s : State) : (s.checkReload).cfg = s.cfg := by
  unfold State.checkReload; split <;> rfl
@[simp] theorem State.checkReload_pwm (s : State) : (s.checkReload).pwm = s.pwm := by
  unfold State.checkReload; split <;> rfl
@[simp] theorem State.checkReload_lt (s : State) : (s.checkReload).lt = s.lt := by
  unfold State.checkReload; split <;> rfl
@[simp] theorem State.checkReload_dma (s : State) : (s.checkReload).dma = s.dma := by
  unfold State.checkReload; split <;> rfl
@[simp] theorem State.checkReload_spi (s : State) : (s.checkReload).spi = s.spi := by
  unfold State.checkReload; split <;> rfl
@[simp] theorem State.checkReload_port (s : State) : (s.checkReload).port = s.port := by
  unfold State.checkReload; split <;> rfl
@[simp] theorem State.checkReload_gpio (s : State) : (s.checkReload).gpio = s.gpio := by
  unfold State.checkReload; split <;> rfl
@[simp] theorem State.checkReload_nvic (s : State) : (s.checkReload).nvic = s.nvic := by
  unfold State.checkReload; split <;> rfl
@[simp] theorem State.checkReload_dmaFirst (s : State) : (s.checkReload).dmaFirst = s.dmaFirst := by
  unfold State.checkReload; split <;> rfl
@[simp] theorem State.checkReload_sleep (s : State) : (s.checkReload).sleep = s.sleep := by
  unfold State.checkReload; split <;> rfl
@[simp] theorem State.checkReload_mem (s : State) : (s.checkReload).mem = s.mem := by
  unfold State.checkReload; split <;> rfl
@[simp] theorem State.checkReload_inbox (s : State) : (s.checkReload).inbox = s.inbox := by
  unfold State.checkReload; split <;> rfl
@[simp] theorem State.checkReload_waiting (s : State) : (s.checkReload).waiting = s.waiting := by
  unfold State.checkReload; split <;> rfl
@[simp] theorem State.checkReload_busData (s : State) : (s.checkReload).busData = s.busData := by
  unfold State.checkReload; split <;> rfl
@[simp] theorem State.checkReload_lastSent (s : State) : (s.checkReload).lastSent = s.lastSent := by
  unfold State.checkReload; split <;> rfl
@[simp] theorem State.checkReload_draws (s : State) : (s.checkReload).draws = s.draws := by
  unfold State.checkReload; split <;> rfl
@[simp] theorem State.checkReload_races (s : State) : (s.checkReload).races = s.races := by
  unfold State.checkReload; split <;> rfl
/-! `startTransfer` -/
@[simp] theorem State.startTransfer_life (s : State) : (s.startTransfer).life = s.life := by
  simp [State.startTransfer]
@[simp] theorem State.startTransfer_mode (s : State) : (s.startTransfer).mode = s.mode := by
  simp [State.startTransfer]
@[simp] theorem State.startTransfer_tim (s : State) : (s.startTransfer).tim = s.tim := by
  simp [State.startTransfer]
@[simp] theorem State.startTransfer_fb (s : State) : (s.startTransfer).fb = s.fb := by
  simp [State.startTransfer]
@[simp] theorem State.startTransfer_line (s : State) : (s.startTransfer).line = s.line := by
  simp [State.startTransfer]
@[simp] theorem State.startTransfer_sub (s : State) : (s.startTransfer).sub = s.sub := by
  simp [State.startTransfer]
@[simp] theorem State.startTransfer_phase (s : State) : (s.startTransfer).phase = s.phase := by
  simp [State.startTransfer]
@[simp] theorem State.startTransfer_frame (s : State) : (s.startTransfer).frame = s.frame := by
  simp [State.startTransfer]
@[simp] theorem State.startTransfer_synced (s : State) : (s.startTransfer).synced = s.synced := by
  simp [State.startTransfer]
@[simp] theorem State.startTransfer_armed (s : State) : (s.startTransfer).armed = s.armed := by
  simp [State.startTransfer]
@[simp] theorem State.startTransfer_ldpend (s : State) : (s.startTransfer).ldpend = s.ldpend := by
  simp [State.startTransfer]
@[simp] theorem State.startTransfer_vsync (s : State) : (s.startTransfer).vsync = s.vsync := by
  simp [State.startTransfer]
@[simp] theorem State.startTransfer_vpol (s : State) : (s.startTransfer).vpol = s.vpol := by
  simp [State.startTransfer]
@[simp] theorem State.startTransfer_cslot0 (s : State) : (s.startTransfer).cslot0 = s.cslot0 := by
  simp [State.startTransfer]
@[simp] theorem State.startTransfer_cslot1 (s : State) : (s.startTransfer).cslot1 = s.cslot1 := by
  simp [State.startTransfer]
@[simp] theorem State.startTransfer_win (s : State) : (s.startTransfer).win = s.win := by
  simp [State.startTransfer]
@[simp] theorem State.startTransfer_status (s : State) : (s.startTransfer).status = s.status := by
  simp [State.startTransfer]
@[simp] theorem State.startTransfer_result (s : State) : (s.startTransfer).result = s.result := by
  simp [State.startTransfer]
@[simp] theorem State.startTransfer_args (s : State) : (s.startTransfer).args = s.args := by
  simp [State.startTransfer]
@[simp] theorem State.startTransfer_cfg (s : State) : (s.startTransfer).cfg = s.cfg := by
  simp [State.startTransfer]
@[simp] theorem State.startTransfer_pwm (s : State) : (s.startTransfer).pwm = s.pwm := by
  simp [State.startTransfer]
@[simp] theorem State.startTransfer_lt (s : State) : (s.startTransfer).lt = s.lt := by
  simp [State.startTransfer]
@[simp] theorem State.startTransfer_spi (s : State) : (s.startTransfer).spi = s.spi := by
  simp [State.startTransfer]
@[simp] theorem State.startTransfer_port (s : State) : (s.startTransfer).port = s.port := by
  simp [State.startTransfer]
@[simp] theorem State.startTransfer_nvic (s : State) : (s.startTransfer).nvic = s.nvic := by
  simp [State.startTransfer]
@[simp] theorem State.startTransfer_dmaFirst (s : State) : (s.startTransfer).dmaFirst = s.dmaFirst := by
  simp [State.startTransfer]
@[simp] theorem State.startTransfer_sleep (s : State) : (s.startTransfer).sleep = s.sleep := by
  simp [State.startTransfer]
@[simp] theorem State.startTransfer_mem (s : State) : (s.startTransfer).mem = s.mem := by
  simp [State.startTransfer]
@[simp] theorem State.startTransfer_inbox (s : State) : (s.startTransfer).inbox = s.inbox := by
  simp [State.startTransfer]
@[simp] theorem State.startTransfer_waiting (s : State) : (s.startTransfer).waiting = s.waiting := by
  simp [State.startTransfer]
@[simp] theorem State.startTransfer_busData (s : State) : (s.startTransfer).busData = s.busData := by
  simp [State.startTransfer]
@[simp] theorem State.startTransfer_lastSent (s : State) : (s.startTransfer).lastSent = s.lastSent := by
  simp [State.startTransfer]
@[simp] theorem State.startTransfer_races (s : State) : (s.startTransfer).races = s.races := by
  simp [State.startTransfer]
/-! `vgaTransfer` -/
@[simp] theorem State.vgaTransfer_life (s : State) : (s.vgaTransfer).life = s.life := by
  unfold State.vgaTransfer; split <;> simp
@[simp] theorem State.vgaTransfer_mode (s : State) : (s.vgaTransfer).mode = s.mode := by
  unfold State.vgaTransfer; split <;> simp
@[simp] theorem State.vgaTransfer_tim (s : State) : (s.vgaTransfer).tim = s.tim := by
  unfold State.vgaTransfer; split <;> simp
@[simp] theorem State.vgaTransfer_fb (s : State) : (s.vgaTransfer).fb = s.fb := by
  unfold State.vgaTransfer; split <;> simp
@[simp] theorem State.vgaTransfer_line (s : State) : (s.vgaTransfer).line = s.line := by
  unfold State.vgaTransfer; split <;> simp
@[simp] theorem State.vgaTransfer_sub (s : State) : (s.vgaTransfer).sub = s.sub := by
  unfold State.vgaTransfer; split <;> simp
@[simp] theorem State.vgaTransfer_phase (s : State) : (s.vgaTransfer).phase = s.phase := by
  unfold State.vgaTransfer; split <;> simp
@[simp] theorem State.vgaTransfer_frame (s : State) : (s.vgaTransfer).frame = s.frame := by
  unfold State.vgaTransfer; split <;> simp
@[simp] theorem State.vgaTransfer_synced (s : State) : (s.vgaTransfer).synced = s.synced := by
  unfold State.vgaTransfer; split <;> simp
@[simp] theorem State.vgaTransfer_armed (s : State) : (s.vgaTransfer).armed = s.armed := by
  unfold State.vgaTransfer; split <;> simp
@[simp] theorem State.vgaTransfer_ldpend (s : State) : (s.vgaTransfer).ldpend = s.ldpend := by
  unfold State.vgaTransfer; split <;> simp
@[simp] theorem State.vgaTransfer_vsync (s : State) : (s.vgaTransfer).vsync = s.vsync := by
  unfold State.vgaTransfer; split <;> simp
@[simp] theorem State.vgaTransfer_vpol (s : State) : (s.vgaTransfer).vpol = s.vpol := by
  unfold State.vgaTransfer; split <;> simp
@[simp] theorem State.vgaTransfer_cslot0 (s : State) : (s.vgaTransfer).cslot0 = s.cslot0 := by
  unfold State.vgaTransfer; split <;> simp
@[simp] theorem State.vgaTransfer_cslot1 (s : State) : (s.vgaTransfer).cslot1 = s.cslot1 := by
  unfold State.vgaTransfer; split <;> simp
@[simp] theorem State.vgaTransfer_win (s : State) : (s.vgaTransfer).win = s.win := by
  unfold State.vgaTransfer; split <;> simp
@[simp] theorem State.vgaTransfer_status (s : State) : (s.vgaTransfer).status = s.status := by
  unfold State.vgaTransfer; split <;> simp
@[simp] theorem State.vgaTransfer_result (s : State) : (s.vgaTransfer).result = s.result := by
  unfold State.vgaTransfer; split <;> simp
@[simp] theorem State.vgaTransfer_args (s : State) : (s.vgaTransfer).args = s.args := by
  unfold State.vgaTransfer; split <;> simp
@[simp] theorem State.vgaTransfer_cfg (s : State) : (s.vgaTransfer).cfg = s.cfg := by
  unfold State.vgaTransfer; split <;> simp
@[simp] theorem State.vgaTransfer_pwm (s : State) : (s.vgaTransfer).pwm = s.pwm := by
  unfold State.vgaTransfer; split <;> simp
@[simp] theorem State.vgaTransfer_lt (s : State) : (s.vgaTransfer).lt = s.lt := by
  unfold State.vgaTransfer; split <;> simp
@[simp] theorem State.vgaTransfer_spi (s : State) : (s.vgaTransfer).spi = s.spi := by
  unfold State.vgaTransfer; split <;> simp
@[simp] theorem State.vgaTransfer_port (s : State) : (s.vgaTransfer).port = s.port := by
  unfold State.vgaTransfer; split <;> simp
@[simp] theorem State.vgaTransfer_nvic (s : State) : (s.vgaTransfer).nvic = s.nvic := by
  unfold State.vgaTransfer; split <;> simp
@[simp] theorem State.vgaTransfer_dmaFirst (s : State) : (s.vgaTransfer).dmaFirst = s.dmaFirst := by
  unfold State.vgaTransfer; split <;> simp
@[simp] theorem State.vgaTransfer_sleep (s : State) : (s.vgaTransfer).sleep = s.sleep := by
  unfold State.vgaTransfer; split <;> simp
@[simp] theorem State.vgaTransfer_mem (s : State) : (s.vgaTransfer).mem = s.mem := by
  unfold State.vgaTransfer; split <;> simp
@[simp] theorem State.vgaTransfer_inbox (s : State) : (s.vgaTransfer).inbox = s.inbox := by
  unfold State.vgaTransfer; split <;> simp
@[simp] theorem State.vgaTransfer_waiting (s : State) : (s.vgaTransfer).waiting = s.waiting := by
  unfold State.vgaTransfer; split <;> simp
@[simp] theorem State.vgaTransfer_busData (s : State) : (s.vgaTransfer).busData = s.busData := by
  unfold State.vgaTransfer; split <;> simp
@[simp] theorem State.vgaTransfer_lastSent (s : State) : (s.vgaTransfer).lastSent = s.lastSent := by
  unfold State.vgaTransfer; split <;> simp
@[simp] theorem State.vgaTransfer_races (s : State) : (s.vgaTransfer).races = s.races := by
  unfold State.vgaTransfer; split <;> simp
/-! `vgaAdvance` -/
@[simp] theorem State.vgaAdvance_life (s : State) (b : Bool) : (s.vgaAdvance b).life = s.life := by
  unfold State.vgaAdvance; dsimp only; split <;> rfl
@[simp] theorem State.vgaAdvance_mode (s : State) (b : Bool) : (s.vgaAdvance b).mode = s.mode := by
  unfold State.vgaAdvance; dsimp only; split <;> rfl
@[simp] theorem State.vgaAdvance_tim (s : State) (b : Bool) : (s.vgaAdvance b).tim = s.tim := by
  unfold State.vgaAdvance; dsimp only; split <;> rfl
@[simp] theorem State.vgaAdvance_fb (s : State) (b : Bool) : (s.vgaAdvance b).fb = s.fb := by
  unfold State.vgaAdvance; dsimp only; split <;> rfl
@[simp] theorem State.vgaAdvance_phase (s : State) (b : Bool) : (s.vgaAdvance b).phase = s.phase := by
  unfold State.vgaAdvance; dsimp only; split <;> rfl
@[simp] theorem State.vgaAdvance_frame (s : State) (b : Bool) : (s.vgaAdvance b).frame = s.frame := by
  unfold State.vgaAdvance; dsimp only; split <;> rfl
@[simp] theorem State.vgaAdvance_synced (s : State) (b : Bool) : (s.vgaAdvance b).synced = s.synced := by
  unfold State.vgaAdvance; dsimp only; split <;> rfl
@[simp] theorem State.vgaAdvance_armed (s : State) (b : Bool) : (s.vgaAdvance b).armed = s.armed := by
  unfold State.vgaAdvance; dsimp only; split <;> rfl
@[simp] theorem State.vgaAdvance_vsync (s : State) (b : Bool) : (s.vgaAdvance b).vsync = s.vsync := by
  unfold State.vgaAdvance; dsimp only; split <;> rfl
@[simp] theorem State.vgaAdvance_vpol (s : State) (b : Bool) : (s.vgaAdvance b).vpol = s.vpol := by
  unfold State.vgaAdvance; dsimp only; split <;> rfl
@[simp] theorem State.vgaAdvance_cslot0 (s : State) (b : Bool) : (s.vgaAdvance b).cslot0 = s.cslot0 := by
  unfold State.vgaAdvance; dsimp only; split <;> rfl
@[simp] theorem State.vgaAdvance_cslot1 (s : State) (b : Bool) : (s.vgaAdvance b).cslot1 = s.cslot1 := by
  unfold State.vgaAdvance; dsimp only; split <;> rfl
@[simp] theorem State.vgaAdvance_win (s : State) (b : Bool) : (s.vgaAdvance b).win = s.win := by
  unfold State.vgaAdvance; dsimp only; split <;> rfl
@[simp] theorem State.vgaAdvance_status (s : State) (b : Bool) : (s.vgaAdvance b).status = s.status := by
  unfold State.vgaAdvance; dsimp only; split <;> rfl
@[simp] theorem State.vgaAdvance_result (s : State) (b : Bool) : (s.vgaAdvance b).result = s.result := by
  unfold State.vgaAdvance; dsimp only; split <;> rfl
@[simp] theorem State.vgaAdvance_args (s : State) (b : Bool) : (s.vgaAdvance b).args = s.args := by
  unfold State.vgaAdvance; dsimp only; split <;> rfl
@[simp] theorem State.vgaAdvance_cfg (s : State) (b : Bool) : (s.vgaAdvance b).cfg = s.cfg := by
  unfold State.vgaAdvance; dsimp only; split <;> rfl
@[simp] theorem State.vgaAdvance_fault (s : State) (b : Bool) : (s.vgaAdvance b).fault = s.fault := by
  unfold State.vgaAdvance; dsimp only; split <;> rfl
@[simp] theorem State.vgaAdvance_pwm (s : State) (b : Bool) : (s.vgaAdvance b).pwm = s.pwm := by
  unfold State.vgaAdvance; dsimp only; split <;> rfl
@[simp] theorem State.vgaAdvance_lt (s : State) (b : Bool) : (s.vgaAdvance b).lt = s.lt := by
  unfold State.vgaAdvance; dsimp only; split <;> rfl
@[simp] theorem State.vgaAdvance_dma (s : State) (b : Bool) : (s.vgaAdvance b).dma = s.dma := by
  unfold State.vgaAdvance; dsimp only; split <;> rfl
@[simp] theorem State.vgaAdvance_spi (s : State) (b : Bool) : (s.vgaAdvance b).spi = s.spi := by
  unfold State.vgaAdvance; dsimp only; split <;> rfl
@[simp] theorem State.vgaAdvance_port (s : State) (b : Bool) : (s.vgaAdvance b).port = s.port := by
  unfold State.vgaAdvance; dsimp only; split <;> rfl
@[simp] theorem State.vgaAdvance_gpio (s : State) (b : Bool) : (s.vgaAdvance b).gpio = s.gpio := by
  unfold State.vgaAdvance; dsimp only; split <;> rfl
@[simp] theorem State.vgaAdvance_nvic (s : State) (b : Bool) : (s.vgaAdvance b).nvic = s.nvic := by
  unfold State.vgaAdvance; dsimp only; split <;> rfl
@[simp] theorem State.vgaAdvance_dmaFirst (s : State) (b : Bool) : (s.vgaAdvance b).dmaFirst = s.dmaFirst := by
  unfold State.vgaAdvance; dsimp only; split <;> rfl
@[simp] theorem State.vgaAdvance_sleep (s : State) (b : Bool) : (s.vgaAdvance b).sleep = s.sleep := by
  unfold State.vgaAdvance; dsimp only; split <;> rfl
@[simp] theorem State.vgaAdvance_mem (s : State) (b : Bool) : (s.vgaAdvance b).mem = s.mem := by
  unfold State.vgaAdvance; dsimp only; split <;> rfl
@[simp] theorem State.vgaAdvance_inbox (s : State) (b : Bool) : (s.vgaAdvance b).inbox = s.inbox := by
  unfold State.vgaAdvance; dsimp only; split <;> rfl
@[simp] theorem State.vgaAdvance_waiting (s : State) (b : Bool) : (s.vgaAdvance b).waiting = s.waiting := by
  unfold State.vgaAdvance; dsimp only; split <;> rfl
@[simp] theorem State.vgaAdvance_busData (s : State) (b : Bool) : (s.vgaAdvance b).busData = s.busData := by
  unfold State.vgaAdvance; dsimp only; split <;> rfl
@[simp] theorem State.vgaAdvance_lastSent (s : State) (b : Bool) : (s.vgaAdvance b).lastSent = s.lastSent := by
  unfold State.vgaAdvance; dsimp only; split <;> rfl
@[simp] theorem State.vgaAdvance_draws (s : State) (b : Bool) : (s.vgaAdvance b).draws = s.draws := by
  unfold State.vgaAdvance; dsimp only; split <;> rfl
@[simp] theorem State.vgaAdvance_races (s : State) (b : Bool) : (s.vgaAdvance b).races = s.races := by
  unfold State.vgaAdvance; dsimp only; split <;> rfl
/-! `vgaEndActive` -/
@[simp] theorem State.vgaEndActive_life (s : State) : (s.vgaEndActive).life = s.life := by
  unfold State.vgaEndActive; split <;> rfl
@[simp] theorem State.vgaEndActive_mode (s : State) : (s.vgaEndActive).mode = s.mode := by
  unfold State.vgaEndActive; split <;> rfl
@[simp] theorem State.vgaEndActive_tim (s : State) : (s.vgaEndActive).tim = s.tim := by
  unfold State.vgaEndActive; split <;> rfl
@[simp] theorem State.vgaEndActive_fb (s : State) : (s.vgaEndActive).fb = s.fb := by
  unfold State.vgaEndActive; split <;> rfl
@[simp] theorem State.vgaEndActive_line (s : State) : (s.vgaEndActive).line = s.line := by
  unfold State.vgaEndActive; split <;> rfl
@[simp] theorem State.vgaEndActive_sub (s : State) : (s.vgaEndActive).sub = s.sub := by
  unfold State.vgaEndActive; split <;> rfl
@[simp] theorem State.vgaEndActive_phase (s : State) : (s.vgaEndActive).phase = s.phase := by
  unfold State.vgaEndActive; split <;> rfl
@[simp] theorem State.vgaEndActive_frame (s : State) : (s.vgaEndActive).frame = s.frame := by
  unfold State.vgaEndActive; split <;> rfl
@[simp] theorem State.vgaEndActive_synced (s : State) : (s.vgaEndActive).synced = s.synced := by
  unfold State.vgaEndActive; split <;> rfl
@[simp] theorem State.vgaEndActive_ldpend (s : State) : (s.vgaEndActive).ldpend = s.ldpend := by
  unfold State.vgaEndActive; split <;> rfl
@[simp] theorem State.vgaEndActive_vsync (s : State) : (s.vgaEndActive).vsync = s.vsync := by
  unfold State.vgaEndActive; split <;> rfl
@[simp] theorem State.vgaEndActive_vpol (s : State) : (s.vgaEndActive).vpol = s.vpol := by
  unfold State.vgaEndActive; split <;> rfl
@[simp] theorem State.vgaEndActive_cslot0 (s : State) : (s.vgaEndActive).cslot0 = s.cslot0 := by
  unfold State.vgaEndActive; split <;> rfl
@[simp] theorem State.vgaEndActive_cslot1 (s : State) : (s.vgaEndActive).cslot1 = s.cslot1 := by
  unfold State.vgaEndActive; split <;> rfl
@[simp] theorem State.vgaEndActive_win (s : State) : (s.vgaEndActive).win = s.win := by
  unfold State.vgaEndActive; split <;> rfl
@[simp] theorem State.vgaEndActive_status (s : State) : (s.vgaEndActive).status = s.status := by
  unfold State.vgaEndActive; split <;> rfl
@[simp] theorem State.vgaEndActive_result (s : State) : (s.vgaEndActive).result = s.result := by
  unfold State.vgaEndActive; split <;> rfl
@[simp] theorem State.vgaEndActive_args (s : State) : (s.vgaEndActive).args = s.args := by
  unfold State.vgaEndActive; split <;> rfl
@[simp] theorem State.vgaEndActive_cfg (s : State) : (s.vgaEndActive).cfg = s.cfg := by
  unfold State.vgaEndActive; split <;> rfl
@[simp] theorem State.vgaEndActive_fault (s : State) : (s.vgaEndActive).fault = s.fault := by
  unfold State.vgaEndActive; split <;> rfl
@[simp] theorem State.vgaEndActive_pwm (s : State) : (s.vgaEndActive).pwm = s.pwm := by
  unfold State.vgaEndActive; split <;> rfl
@[simp] theorem State.vgaEndActive_lt (s : State) : (s.vgaEndActive).lt = s.lt := by
  unfold State.vgaEndActive; split <;> rfl
@[simp] theorem State.vgaEndActive_dma (s : State) : (s.vgaEndActive).dma = s.dma := by
  unfold State.vgaEndActive; split <;> rfl
@[simp] theorem State.vgaEndActive_spi (s : State) : (s.vgaEndActive).spi = s.spi := by
  unfold State.vgaEndActive; split <;> rfl
@[simp] theorem State.vgaEndActive_port (s : State) : (s.vgaEndActive).port = s.port := by
  unfold State.vgaEndActive; split <;> rfl
@[simp] theorem State.vgaEndActive_gpio (s : State) : (s.vgaEndActive).gpio = s.gpio := by
  unfold State.vgaEndActive; split <;> rfl
@[simp] theorem State.vgaEndActive_nvic (s : State) : (s.vgaEndActive).nvic = s.nvic := by
  unfold State.vgaEndActive; split <;> rfl
@[simp] theorem State.vgaEndActive_dmaFirst (s : State) : (s.vgaEndActive).dmaFirst = s.dmaFirst := by
  unfold State.vgaEndActive; split <;> rfl
@[simp] theorem State.vgaEndActive_sleep (s : State) : (s.vgaEndActive).sleep = s.sleep := by
  unfold State.vgaEndActive; split <;> rfl
@[simp] theorem State.vgaEndActive_mem (s : State) : (s.vgaEndActive).mem = s.mem := by
  unfold State.vgaEndActive; split <;> rfl
@[simp] theorem State.vgaEndActive_inbox (s : State) : (s.vgaEndActive).inbox = s.inbox := by
  unfold State.vgaEndActive; split <;> rfl
@[simp] theorem State.vgaEndActive_waiting (s : State) : (s.vgaEndActive).waiting = s.waiting := by
  unfold State.vgaEndActive; split <;> rfl
@[simp] theorem State.vgaEndActive_busData (s : State) : (s.vgaEndActive).busData = s.busData := by
  unfold State.vgaEndActive; split <;> rfl
@[simp] theorem State.vgaEndActive_lastSent (s : State) : (s.vgaEndActive).lastSent = s.lastSent := by
  unfold State.vgaEndActive; split <;> rfl
@[simp] theorem State.vgaEndActive_draws (s : State) : (s.vgaEndActive).draws = s.draws := by
  unfold State.vgaEndActive; split <;> rfl
@[simp] theorem State.vgaEndActive_races (s : State) : (s.vgaEndActive).races = s.races := by
  unfold State.vgaEndActive; split <;> rfl
/-! `vgaEndFrame` -/
@[simp] theorem State.vgaEndFrame_life (s : State) : (s.vgaEndFrame).life = s.life := by
  unfold State.vgaEndFrame; split <;> rfl
@[simp] theorem State.vgaEndFrame_mode (s : State) : (s.vgaEndFrame).mode = s.mode := by
  unfold State.vgaEndFrame; split <;> rfl
@[simp] theorem State.vgaEndFrame_tim (s : State) : (s.vgaEndFrame).tim = s.tim := by
  unfold State.vgaEndFrame; split <;> rfl
@[simp] theorem State.vgaEndFrame_fb (s : State) : (s.vgaEndFrame).fb = s.fb := by
  unfold State.vgaEndFrame; split <;> rfl
@[simp] theorem State.vgaEndFrame_sub (s : State) : (s.vgaEndFrame).sub = s.sub := by
  unfold State.vgaEndFrame; split <;> rfl
@[simp] theorem State.vgaEndFrame_phase (s : State) : (s.vgaEndFrame).phase = s.phase := by
  unfold State.vgaEndFrame; split <;> rfl
@[simp] theorem State.vgaEndFrame_synced (s : State) : (s.vgaEndFrame).synced = s.synced := by
  unfold State.vgaEndFrame; split <;> rfl
@[simp] theorem State.vgaEndFrame_ldpend (s : State) : (s.vgaEndFrame).ldpend = s.ldpend := by
  unfold State.vgaEndFrame; split <;> rfl
@[simp] theorem State.vgaEndFrame_vsync (s : State) : (s.vgaEndFrame).vsync = s.vsync := by
  unfold State.vgaEndFrame; split <;> rfl
@[simp] theorem State.vgaEndFrame_vpol (s : State) : (s.vgaEndFrame).vpol = s.vpol := by
  unfold State.vgaEndFrame; split <;> rfl
@[simp] theorem State.vgaEndFrame_cslot0 (s : State) : (s.vgaEndFrame).cslot0 = s.cslot0 := by
  unfold State.vgaEndFrame; split <;> rfl
@[simp] theorem State.vgaEndFrame_cslot1 (s : State) : (s.vgaEndFrame).cslot1 = s.cslot1 := by
  unfold State.vgaEndFrame; split <;> rfl
@[simp] theorem State.vgaEndFrame_win (s : State) : (s.vgaEndFrame).win = s.win := by
  unfold State.vgaEndFrame; split <;> rfl
@[simp] theorem State.vgaEndFrame_status (s : State) : (s.vgaEndFrame).status = s.status := by
  unfold State.vgaEndFrame; split <;> rfl
@[simp] theorem State.vgaEndFrame_result (s : State) : (s.vgaEndFrame).result = s.result := by
  unfold State.vgaEndFrame; split <;> rfl
@[simp] theorem State.vgaEndFrame_args (s : State) : (s.vgaEndFrame).args = s.args := by
  unfold State.vgaEndFrame; split <;> rfl
@[simp] theorem State.vgaEndFrame_cfg (s : State) : (s.vgaEndFrame).cfg = s.cfg := by
  unfold State.vgaEndFrame; split <;> rfl
@[simp] theorem State.vgaEndFrame_fault (s : State) : (s.vgaEndFrame).fault = s.fault := by
  unfold State.vgaEndFrame; split <;> rfl
@[simp] theorem State.vgaEndFrame_pwm (s : State) : (s.vgaEndFrame).pwm = s.pwm := by
  unfold State.vgaEndFrame; split <;> rfl
@[simp] theorem State.vgaEndFrame_lt (s : State) : (s.vgaEndFrame).lt = s.lt := by
  unfold State.vgaEndFrame; split <;> rfl
@[simp] theorem State.vgaEndFrame_spi (s : State) : (s.vgaEndFrame).spi = s.spi := by
  unfold State.vgaEndFrame; split <;> rfl
@[simp] theorem State.vgaEndFrame_port (s : State) : (s.vgaEndFrame).port = s.port := by
  unfold State.vgaEndFrame; split <;> rfl
@[simp] theorem State.vgaEndFrame_gpio (s : State) : (s.vgaEndFrame).gpio = s.gpio := by
  unfold State.vgaEndFrame; split <;> rfl
@[simp] theorem State.vgaEndFrame_nvic (s : State) : (s.vgaEndFrame).nvic = s.nvic := by
  unfold State.vgaEndFrame; split <;> rfl
@[simp] theorem State.vgaEndFrame_dmaFirst (s : State) : (s.vgaEndFrame).dmaFirst = s.dmaFirst := by
  unfold State.vgaEndFrame; split <;> rfl
@[simp] theorem State.vgaEndFrame_sleep (s : State) : (s.vgaEndFrame).sleep = s.sleep := by
  unfold State.vgaEndFrame; split <;> rfl
@[simp] theorem State.vgaEndFrame_mem (s : State) : (s.vgaEndFrame).mem = s.mem := by
  unfold State.vgaEndFrame; split <;> rfl
@[simp] theorem State.vgaEndFrame_inbox (s : State) : (s.vgaEndFrame).inbox = s.inbox := by
  unfold State.vgaEndFrame; split <;> rfl
@[simp] theorem State.vgaEndFrame_waiting (s : State) : (s.vgaEndFrame).waiting = s.waiting := by
  unfold State.vgaEndFrame; split <;> rfl
@[simp] theorem State.vgaEndFrame_busData (s : State) : (s.vgaEndFrame).busData = s.busData := by
  unfold State.vgaEndFrame; split <;> rfl
@[simp] theorem State.vgaEndFrame_lastSent (s : State) : (s.vgaEndFrame).lastSent = s.lastSent := by
  unfold State.vgaEndFrame; split <;> rfl
@[simp] theorem State.vgaEndFrame_draws (s : State) : (s.vgaEndFrame).draws = s.draws := by
  unfold State.vgaEndFrame; split <;> rfl
@[simp] theorem State.vgaEndFrame_races (s : State) : (s.vgaEndFrame).races = s.races := by
  unfold State.vgaEndFrame; split <;> rfl
/-! `vgaLine` -/
@[simp] theorem State.vgaLine_life (s : State) : (s.vgaLine).life = s.life := by
  simp [State.vgaLine]
@[simp] theorem State.vgaLine_mode (s : State) : (s.vgaLine).mode = s.mode := by
  simp [State.vgaLine]
@[simp] theorem State.vgaLine_tim (s : State) : (s.vgaLine).tim = s.tim := by
  simp [State.vgaLine]
@[simp] theorem State.vgaLine_fb (s : State) : (s.vgaLine).fb = s.fb := by
  simp [State.vgaLine]
@[simp] theorem State.vgaLine_phase (s : State) : (s.vgaLine).phase = s.phase := by
  simp [State.vgaLine]
@[simp] theorem State.vgaLine_synced (s : State) : (s.vgaLine).synced = s.synced := by
  simp [State.vgaLine]
@[simp] theorem State.vgaLine_vpol (s : State) : (s.vgaLine).vpol = s.vpol := by
  simp [State.vgaLine]
@[simp] theorem State.vgaLine_cslot0 (s : State) : (s.vgaLine).cslot0 = s.cslot0 := by
  simp [State.vgaLine]
@[simp] theorem State.vgaLine_cslot1 (s : State) : (s.vgaLine).cslot1 = s.cslot1 := by
  simp [State.vgaLine]
@[simp] theorem State.vgaLine_win (s : State) : (s.vgaLine).win = s.win := by
  simp [State.vgaLine]
@[simp] theorem State.vgaLine_status (s : State) : (s.vgaLine).status = s.status := by
  simp [State.vgaLine]
@[simp] theorem State.vgaLine_result (s : State) : (s.vgaLine).result = s.result := by
  simp [State.vgaLine]
@[simp] theorem State.vgaLine_args (s : State) : (s.vgaLine).args = s.args := by
  simp [State.vgaLine]
@[simp] theorem State.vgaLine_cfg (s : State) : (s.vgaLine).cfg = s.cfg := by
  simp [State.vgaLine]
@[simp] theorem State.vgaLine_pwm (s : State) : (s.vgaLine).pwm = s.pwm := by
  simp [State.vgaLine]
@[simp] theorem State.vgaLine_lt (s : State) : (s.vgaLine).lt = s.lt := by
  simp [State.vgaLine]
@[simp] theorem State.vgaLine_spi (s : State) : (s.vgaLine).spi = s.spi := by
  simp [State.vgaLine]
@[simp] theorem State.vgaLine_port (s : State) : (s.vgaLine).port = s.port := by
  simp [State.vgaLine]
@[simp] theorem State.vgaLine_nvic (s : State) : (s.vgaLine).nvic = s.nvic := by
  simp [State.vgaLine]
@[simp] theorem State.vgaLine_dmaFirst (s : State) : (s.vgaLine).dmaFirst = s.dmaFirst := by
  simp [State.vgaLine]
@[simp] theorem State.vgaLine_sleep (s : State) : (s.vgaLine).sleep = s.sleep := by
  simp [State.vgaLine]
@[simp] theorem State.vgaLine_mem (s : State) : (s.vgaLine).mem = s.mem := by
  simp [State.vgaLine]
@[simp] theorem State.vgaLine_inbox (s : State) : (s.vgaLine).inbox = s.inbox := by
  simp [State.vgaLine]
@[simp] theorem State.vgaLine_waiting (s : State) : (s.vgaLine).waiting = s.waiting := by
  simp [State.vgaLine]
@[simp] theorem State.vgaLine_busData (s : State) : (s.vgaLine).busData = s.busData := by
  simp [State.vgaLine]
@[simp] theorem State.vgaLine_lastSent (s : State) : (s.vgaLine).lastSent = s.lastSent := by
  simp [State.vgaLine]
@[simp] theorem State.vgaLine_races (s : State) : (s.vgaLine).races = s.races := by
  simp [State.vgaLine]
/-! `rewind` -/
@[simp] theorem State.rewind_life (s : State) : (s.rewind).life = s.life := by
  unfold State.rewind; split <;> [(dsimp only; split <;> rfl); rfl]
@[simp] theorem State.rewind_mode (s : State) : (s.rewind).mode = s.mode := by
  unfold State.rewind; split <;> [(dsimp only; split <;> rfl); rfl]
@[simp] theorem State.rewind_tim (s : State) : (s.rewind).tim = s.tim := by
  unfold State.rewind; split <;> [(dsimp only; split <;> rfl); rfl]
@[simp] theorem State.rewind_fb (s : State) : (s.rewind).fb = s.fb := by
  unfold State.rewind; split <;> [(dsimp only; split <;> rfl); rfl]
@[simp] theorem State.rewind_line (s : State) : (s.rewind).line = s.line := by
  unfold State.rewind; split <;> [(dsimp only; split <;> rfl); rfl]
@[simp] theorem State.rewind_sub (s : State) : (s.rewind).sub = s.sub := by
  unfold State.rewind; split <;> [(dsimp only; split <;> rfl); rfl]
@[simp] theorem State.rewind_phase (s : State) : (s.rewind).phase = s.phase := by
  unfold State.rewind; split <;> [(dsimp only; split <;> rfl); rfl]
@[simp] theorem State.rewind_frame (s : State) : (s.rewind).frame = s.frame := by
  unfold State.rewind; split <;> [(dsimp only; split <;> rfl); rfl]
@[simp] theorem State.rewind_synced (s : State) : (s.rewind).synced = s.synced := by
  unfold State.rewind; split <;> [(dsimp only; split <;> rfl); rfl]
@[simp] theorem State.rewind_armed (s : State) : (s.rewind).armed = s.armed := by
  unfold State.rewind; split <;> [(dsimp only; split <;> rfl); rfl]
@[simp] theorem State.rewind_vsync (s : State) : (s.rewind).vsync = s.vsync := by
  unfold State.rewind; split <;> [(dsimp only; split <;> rfl); rfl]
@[simp] theorem State.rewind_vpol (s : State) : (s.rewind).vpol = s.vpol := by
  unfold State.rewind; split <;> [(dsimp only; split <;> rfl); rfl]
@[simp] theorem State.rewind_cslot0 (s : State) : (s.rewind).cslot0 = s.cslot0 := by
  unfold State.rewind; split <;> [(dsimp only; split <;> rfl); rfl]
@[simp] theorem State.rewind_cslot1 (s : State) : (s.rewind).cslot1 = s.cslot1 := by
  unfold State.rewind; split <;> [(dsimp only; split <;> rfl); rfl]
@[simp] theorem State.rewind_win (s : State) : (s.rewind).win = s.win := by
  unfold State.rewind; split <;> [(dsimp only; split <;> rfl); rfl]
@[simp] theorem State.rewind_status (s : State) : (s.rewind).status = s.status := by
  unfold State.rewind; split <;> [(dsimp only; split <;> rfl); rfl]
@[simp] theorem State.rewind_result (s : State) : (s.rewind).result = s.result := by
  unfold State.rewind; split <;> [(dsimp only; split <;> rfl); rfl]
@[simp] theorem State.rewind_args (s : State) : (s.rewind).args = s.args := by
  unfold State.rewind; split <;> [(dsimp only; split <;> rfl); rfl]
@[simp] theorem State.rewind_cfg (s : State) : (s.rewind).cfg = s.cfg := by
  unfold State.rewind; split <;> [(dsimp only; split <;> rfl); rfl]
@[simp] theorem State.rewind_pwm (s : State) : (s.rewind).pwm = s.pwm := by
  unfold State.rewind; split <;> [(dsimp only; split <;> rfl); rfl]
@[simp] theorem State.rewind_lt (s : State) : (s.rewind).lt = s.lt := by
  unfold State.rewind; split <;> [(dsimp only; split <;> rfl); rfl]
@[simp] theorem State.rewind_spi (s : State) : (s.rewind).spi = s.spi := by
  unfold State.rewind; split <;> [(dsimp only; split <;> rfl); rfl]
@[simp] theorem State.rewind_port (s : State) : (s.rewind).port = s.port := by
  unfold State.rewind; split <;> [(dsimp only; split <;> rfl); rfl]
@[simp] theorem State.rewind_gpio (s : State) : (s.rewind).gpio = s.gpio := by
  unfold State.rewind; split <;> [(dsimp only; split <;> rfl); rfl]
@[simp] theorem State.rewind_nvic (s : State) : (s.rewind).nvic = s.nvic := by
  unfold State.rewind; split <;> [(dsimp only; split <;> rfl); rfl]
@[simp] theorem State.rewind_dmaFirst (s : State) : (s.rewind).dmaFirst = s.dmaFirst := by
  unfold State.rewind; split <;> [(dsimp only; split <;> rfl); rfl]
@[simp] theorem State.rewind_sleep (s : State) : (s.rewind).sleep = s.sleep := by
  unfold State.rewind; split <;> [(dsimp only; split <;> rfl); rfl]
@[simp] theorem State.rewind_mem (s : State) : (s.rewind).mem = s.mem := by
  unfold State.rewind; split <;> [(dsimp only; split <;> rfl); rfl]
@[simp] theorem State.rewind_inbox (s : State) : (s.rewind).inbox = s.inbox := by
  unfold State.rewind; split <;> [(dsimp only; split <;> rfl); rfl]
@[simp] theorem State.rewind_waiting (s : State) : (s.rewind).waiting = s.waiting := by
  unfold State.rewind; split <;> [(dsimp only; split <;> rfl); rfl]
@[simp] theorem State.rewind_busData (s : State) : (s.rewind).busData = s.busData := by
  unfold State.rewind; split <;> [(dsimp only; split <;> rfl); rfl]
@[simp] theorem State.rewind_lastSent (s : State) : (s.rewind).lastSent = s.lastSent := by
  unfold State.rewind; split <;> [(dsimp only; split <;> rfl); rfl]
@[simp] theorem State.rewind_draws (s : State) : (s.rewind).draws = s.draws := by
  unfold State.rewind; split <;> [(dsimp only; split <;> rfl); rfl]
@[simp] theorem State.rewind_races (s : State) : (s.rewind).races = s.races := by
  unfold State.rewind; split <;> [(dsimp only; split <;> rfl); rfl]
/-! `startSlotTransfer` -/
@[simp] theorem State.startSlotTransfer_life (s : State) (j len : Nat) : (s.startSlotTransfer j len).life = s.life := by
  simp [State.startSlotTransfer]
@[simp] theorem State.startSlotTransfer_mode (s : State) (j len : Nat) : (s.startSlotTransfer j len).mode = s.mode := by
  simp [State.startSlotTransfer]
@[simp] theorem State.startSlotTransfer_tim (s : State) (j len : Nat) : (s.startSlotTransfer j len).tim = s.tim := by
  simp [State.startSlotTransfer]
@[simp] theorem State.startSlotTransfer_fb (s : State) (j len : Nat) : (s.startSlotTransfer j len).fb = s.fb := by
  simp [State.startSlotTransfer]
@[simp] theorem State.startSlotTransfer_line (s : State) (j len : Nat) : (s.startSlotTransfer j len).line = s.line := by
  simp [State.startSlotTransfer]
@[simp] theorem State.startSlotTransfer_sub (s : State) (j len : Nat) : (s.startSlotTransfer j len).sub = s.sub := by
  simp [State.startSlotTransfer]
@[simp] theorem State.startSlotTransfer_phase (s : State) (j len : Nat) : (s.startSlotTransfer j len).phase = s.phase := by
  simp [State.startSlotTransfer]
@[simp] theorem State.startSlotTransfer_frame (s : State) (j len : Nat) : (s.startSlotTransfer j len).frame = s.frame := by
  simp [State.startSlotTransfer]
@[simp] theorem State.startSlotTransfer_synced (s : State) (j len : Nat) : (s.startSlotTransfer j len).synced = s.synced := by
  simp [State.startSlotTransfer]
@[simp] theorem State.startSlotTransfer_armed (s : State) (j len : Nat) : (s.startSlotTransfer j len).armed = s.armed := by
  simp [State.startSlotTransfer]
@[simp] theorem State.startSlotTransfer_ldpend (s : State) (j len : Nat) : (s.startSlotTransfer j len).ldpend = s.ldpend := by
  simp [State.startSlotTransfer]
@[simp] theorem State.startSlotTransfer_vsync (s : State) (j len : Nat) : (s.startSlotTransfer j len).vsync = s.vsync := by
  simp [State.startSlotTransfer]
@[simp] theorem State.startSlotTransfer_vpol (s : State) (j len : Nat) : (s.startSlotTransfer j len).vpol = s.vpol := by
  simp [State.startSlotTransfer]
@[simp] theorem State.startSlotTransfer_cslot0 (s : State) (j len : Nat) : (s.startSlotTransfer j len).cslot0 = s.cslot0 := by
  simp [State.startSlotTransfer]
@[simp] theorem State.startSlotTransfer_cslot1 (s : State) (j len : Nat) : (s.startSlotTransfer j len).cslot1 = s.cslot1 := by
  simp [State.startSlotTransfer]
@[simp] theorem State.startSlotTransfer_win (s : State) (j len : Nat) : (s.startSlotTransfer j len).win = s.win := by
  simp [State.startSlotTransfer]
@[simp] theorem State.startSlotTransfer_status (s : State) (j len : Nat) : (s.startSlotTransfer j len).status = s.status := by
  simp [State.startSlotTransfer]
@[simp] theorem State.startSlotTransfer_result (s : State) (j len : Nat) : (s.startSlotTransfer j len).result = s.result := by
  simp [State.startSlotTransfer]
@[simp] theorem State.startSlotTransfer_args (s : State) (j len : Nat) : (s.startSlotTransfer j len).args = s.args := by
  simp [State.startSlotTransfer]
@[simp] theorem State.startSlotTransfer_cfg (s : State) (j len : Nat) : (s.startSlotTransfer j len).cfg = s.cfg := by
  simp [State.startSlotTransfer]
@[simp] theorem State.startSlotTransfer_pwm (s : State) (j len : Nat) : (s.startSlotTransfer j len).pwm = s.pwm := by
  simp [State.startSlotTransfer]
@[simp] theorem State.startSlotTransfer_lt (s : State) (j len : Nat) : (s.startSlotTransfer j len).lt = s.lt := by
  simp [State.startSlotTransfer]
@[simp] theorem State.startSlotTransfer_spi (s : State) (j len : Nat) : (s.startSlotTransfer j len).spi = s.spi := by
  simp [State.startSlotTransfer]
@[simp] theorem State.startSlotTransfer_port (s : State) (j len : Nat) : (s.startSlotTransfer j len).port = s.port := by
  simp [State.startSlotTransfer]
@[simp] theorem State.startSlotTransfer_gpio (s : State) (j len : Nat) : (s.startSlotTransfer j len).gpio = s.gpio := by
  simp [State.startSlotTransfer]
@[simp] theorem State.startSlotTransfer_nvic (s : State) (j len : Nat) : (s.startSlotTransfer j len).nvic = s.nvic := by
  simp [State.startSlotTransfer]
@[simp] theorem State.startSlotTransfer_dmaFirst (s : State) (j len : Nat) : (s.startSlotTransfer j len).dmaFirst = s.dmaFirst := by
  simp [State.startSlotTransfer]
@[simp] theorem State.startSlotTransfer_sleep (s : State) (j len : Nat) : (s.startSlotTransfer j len).sleep = s.sleep := by
  simp [State.startSlotTransfer]
@[simp] theorem State.startSlotTransfer_mem (s : State) (j len : Nat) : (s.startSlotTransfer j len).mem = s.mem := by
  simp [State.startSlotTransfer]
@[simp] theorem State.startSlotTransfer_inbox (s : State) (j len : Nat) : (s.startSlotTransfer j len).inbox = s.inbox := by
  simp [State.startSlotTransfer]
@[simp] theorem State.startSlotTransfer_waiting (s : State) (j len : Nat) : (s.startSlotTransfer j len).waiting = s.waiting := by
  simp [State.startSlotTransfer]
@[simp] theorem State.startSlotTransfer_busData (s : State) (j len : Nat) : (s.startSlotTransfer j len).busData = s.busData := by
  simp [State.startSlotTransfer]
@[simp] theorem State.startSlotTransfer_lastSent (s : State) (j len : Nat) : (s.startSlotTransfer j len).lastSent = s.lastSent := by
  simp [State.startSlotTransfer]
@[simp] theorem State.startSlotTransfer_races (s : State) (j len : Nat) : (s.startSlotTransfer j len).races = s.races := by
  simp [State.startSlotTransfer]
/-! `fillLine` -/
@[simp] theorem State.fillLine_life (s : State) (p : CompositeParams) (n : Nat) : (s.fillLine p n).life = s.life := by
  unfold State.fillLine; split <;> rfl
@[simp] theorem State.fillLine_mode (s : State) (p : CompositeParams) (n : Nat) : (s.fillLine p n).mode = s.mode := by
  unfold State.fillLine; split <;> rfl
@[simp] theorem State.fillLine_tim (s : State) (p : CompositeParams) (n : Nat) : (s.fillLine p n).tim = s.tim := by
  unfold State.fillLine; split <;> rfl
@[simp] theorem State.fillLine_fb (s : State) (p : CompositeParams) (n : Nat) : (s.fillLine p n).fb = s.fb := by
  unfold State.fillLine; split <;> rfl
@[simp] theorem State.fillLine_line (s : State) (p : CompositeParams) (n : Nat) : (s.fillLine p n).line = s.line := by
  unfold State.fillLine; split <;> rfl
@[simp] theorem State.fillLine_sub (s : State) (p : CompositeParams) (n : Nat) : (s.fillLine p n).sub = s.sub := by
  unfold State.fillLine; split <;> rfl
@[simp] theorem State.fillLine_phase (s : State) (p : CompositeParams) (n : Nat) : (s.fillLine p n).phase = s.phase := by
  unfold State.fillLine; split <;> rfl
@[simp] theorem State.fillLine_frame (s : State) (p : CompositeParams) (n : Nat) : (s.fillLine p n).frame = s.frame := by
  unfold State.fillLine; split <;> rfl
@[simp] theorem State.fillLine_synced (s : State) (p : CompositeParams) (n : Nat) : (s.fillLine p n).synced = s.synced := by
  unfold State.fillLine; split <;> rfl
@[simp] theorem State.fillLine_armed (s : State) (p : CompositeParams) (n : Nat) : (s.fillLine p n).armed = s.armed := by
  unfold State.fillLine; split <;> rfl
@[simp] theorem State.fillLine_ldpend (s : State) (p : CompositeParams) (n : Nat) : (s.fillLine p n).ldpend = s.ldpend := by
  unfold State.fillLine; split <;> rfl
@[simp] theorem State.fillLine_vsync (s : State) (p : CompositeParams) (n : Nat) : (s.fillLine p n).vsync = s.vsync := by
  unfold State.fillLine; split <;> rfl
@[simp] theorem State.fillLine_vpol (s : State) (p : CompositeParams) (n : Nat) : (s.fillLine p n).vpol = s.vpol := by
  unfold State.fillLine; split <;> rfl
@[simp] theorem State.fillLine_win (s : State) (p : CompositeParams) (n : Nat) : (s.fillLine p n).win = s.win := by
  unfold State.fillLine; split <;> rfl
@[simp] theorem State.fillLine_status (s : State) (p : CompositeParams) (n : Nat) : (s.fillLine p n).status = s.status := by
  unfold State.fillLine; split <;> rfl
@[simp] theorem State.fillLine_result (s : State) (p : CompositeParams) (n : Nat) : (s.fillLine p n).result = s.result := by
  unfold State.fillLine; split <;> rfl
@[simp] theorem State.fillLine_args (s : State) (p : CompositeParams) (n : Nat) : (s.fillLine p n).args = s.args := by
  unfold State.fillLine; split <;> rfl
@[simp] theorem State.fillLine_cfg (s : State) (p : CompositeParams) (n : Nat) : (s.fillLine p n).cfg = s.cfg := by
  unfold State.fillLine; split <;> rfl
@[simp] theorem State.fillLine_fault (s : State) (p : CompositeParams) (n : Nat) : (s.fillLine p n).fault = s.fault := by
  unfold State.fillLine; split <;> rfl
@[simp] theorem State.fillLine_pwm (s : State) (p : CompositeParams) (n : Nat) : (s.fillLine p n).pwm = s.pwm := by
  unfold State.fillLine; split <;> rfl
@[simp] theorem State.fillLine_lt (s : State) (p : CompositeParams) (n : Nat) : (s.fillLine p n).lt = s.lt := by
  unfold State.fillLine; split <;> rfl
@[simp] theorem State.fillLine_dma (s : State) (p : CompositeParams) (n : Nat) : (s.fillLine p n).dma = s.dma := by
  unfold State.fillLine; split <;> rfl
@[simp] theorem State.fillLine_spi (s : State) (p : CompositeParams) (n : Nat) : (s.fillLine p n).spi = s.spi := by
  unfold State.fillLine; split <;> rfl
@[simp] theorem State.fillLine_port (s : State) (p : CompositeParams) (n : Nat) : (s.fillLine p n).port = s.port := by
  unfold State.fillLine; split <;> rfl
@[simp] theorem State.fillLine_gpio (s : State) (p : CompositeParams) (n : Nat) : (s.fillLine p n).gpio = s.gpio := by
  unfold State.fillLine; split <;> rfl
@[simp] theorem State.fillLine_nvic (s : State) (p : CompositeParams) (n : Nat) : (s.fillLine p n).nvic = s.nvic := by
  unfold State.fillLine; split <;> rfl
@[simp] theorem State.fillLine_dmaFirst (s : State) (p : CompositeParams) (n : Nat) : (s.fillLine p n).dmaFirst = s.dmaFirst := by
  unfold State.fillLine; split <;> rfl
@[simp] theorem State.fillLine_sleep (s : State) (p : CompositeParams) (n : Nat) : (s.fillLine p n).sleep = s.sleep := by
  unfold State.fillLine; split <;> rfl
@[simp] theorem State.fillLine_mem (s : State) (p : CompositeParams) (n : Nat) : (s.fillLine p n).mem = s.mem := by
  unfold State.fillLine; split <;> rfl
@[simp] theorem State.fillLine_inbox (s : State) (p : CompositeParams) (n : Nat) : (s.fillLine p n).inbox = s.inbox := by
  unfold State.fillLine; split <;> rfl
@[simp] theorem State.fillLine_waiting (s : State) (p : CompositeParams) (n : Nat) : (s.fillLine p n).waiting = s.waiting := by
  unfold State.fillLine; split <;> rfl
@[simp] theorem State.fillLine_busData (s : State) (p : CompositeParams) (n : Nat) : (s.fillLine p n).busData = s.busData := by
  unfold State.fillLine; split <;> rfl
@[simp] theorem State.fillLine_lastSent (s : State) (p : CompositeParams) (n : Nat) : (s.fillLine p n).lastSent = s.lastSent := by
  unfold State.fillLine; split <;> rfl
@[simp] theorem State.fillLine_draws (s : State) (p : CompositeParams) (n : Nat) : (s.fillLine p n).draws = s.draws := by
  unfold State.fillLine; split <;> rfl
@[simp] theorem State.fillLine_races (s : State) (p : CompositeParams) (n : Nat) : (s.fillLine p n).races = s.races := by
  unfold State.fillLine; split <;> rfl
/-! `compositeAdvance` -/
@[simp] theorem State.compositeAdvance_life (s : State) (p : CompositeParams) (n : Nat) : (s.compositeAdvance p n).life = s.life := by
  unfold State.compositeAdvance; dsimp only; split <;> rfl
@[simp] theorem State.compositeAdvance_mode (s : State) (p : CompositeParams) (n : Nat) : (s.compositeAdvance p n).mode = s.mode := by
  unfold State.compositeAdvance; dsimp only; split <;> rfl
@[simp] theorem State.compositeAdvance_tim (s : State) (p : CompositeParams) (n : Nat) : (s.compositeAdvance p n).tim = s.tim := by
  unfold State.compositeAdvance; dsimp only; split <;> rfl
@[simp] theorem State.compositeAdvance_fb (s : State) (p : CompositeParams) (n : Nat) : (s.compositeAdvance p n).fb = s.fb := by
  unfold State.compositeAdvance; dsimp only; split <;> rfl
@[simp] theorem State.compositeAdvance_sub (s : State) (p : CompositeParams) (n : Nat) : (s.compositeAdvance p n).sub = s.sub := by
  unfold State.compositeAdvance; dsimp only; split <;> rfl
@[simp] theorem State.compositeAdvance_synced (s : State) (p : CompositeParams) (n : Nat) : (s.compositeAdvance p n).synced = s.synced := by
  unfold State.compositeAdvance; dsimp only; split <;> rfl
@[simp] theorem State.compositeAdvance_armed (s : State) (p : CompositeParams) (n : Nat) : (s.compositeAdvance p n).armed = s.armed := by
  unfold State.compositeAdvance; dsimp only; split <;> rfl
@[simp] theorem State.compositeAdvance_ldpend (s : State) (p : CompositeParams) (n : Nat) : (s.compositeAdvance p n).ldpend = s.ldpend := by
  unfold State.compositeAdvance; dsimp only; split <;> rfl
@[simp] theorem State.compositeAdvance_vsync (s : State) (p : CompositeParams) (n : Nat) : (s.compositeAdvance p n).vsync = s.vsync := by
  unfold State.compositeAdvance; dsimp only; split <;> rfl
@[simp] theorem State.compositeAdvance_vpol (s : State) (p : CompositeParams) (n : Nat) : (s.compositeAdvance p n).vpol = s.vpol := by
  unfold State.compositeAdvance; dsimp only; split <;> rfl
@[simp] theorem State.compositeAdvance_cslot0 (s : State) (p : CompositeParams) (n : Nat) : (s.compositeAdvance p n).cslot0 = s.cslot0 := by
  unfold State.compositeAdvance; dsimp only; split <;> rfl
@[simp] theorem State.compositeAdvance_cslot1 (s : State) (p : CompositeParams) (n : Nat) : (s.compositeAdvance p n).cslot1 = s.cslot1 := by
  unfold State.compositeAdvance; dsimp only; split <;> rfl
@[simp] theorem State.compositeAdvance_win (s : State) (p : CompositeParams) (n : Nat) : (s.compositeAdvance p n).win = s.win := by
  unfold State.compositeAdvance; dsimp only; split <;> rfl
@[simp] theorem State.compositeAdvance_status (s : State) (p : CompositeParams) (n : Nat) : (s.compositeAdvance p n).status = s.status := by
  unfold State.compositeAdvance; dsimp only; split <;> rfl
@[simp] theorem State.compositeAdvance_result (s : State) (p : CompositeParams) (n : Nat) : (s.compositeAdvance p n).result = s.result := by
  unfold State.compositeAdvance; dsimp only; split <;> rfl
@[simp] theorem State.compositeAdvance_args (s : State) (p : CompositeParams) (n : Nat) : (s.compositeAdvance p n).args = s.args := by
  unfold State.compositeAdvance; dsimp only; split <;> rfl
@[simp] theorem State.compositeAdvance_cfg (s : State) (p : CompositeParams) (n : Nat) : (s.compositeAdvance p n).cfg = s.cfg := by
  unfold State.compositeAdvance; dsimp only; split <;> rfl
@[simp] theorem State.compositeAdvance_fault (s : State) (p : CompositeParams) (n : Nat) : (s.compositeAdvance p n).fault = s.fault := by
  unfold State.compositeAdvance; dsimp only; split <;> rfl
@[simp] theorem State.compositeAdvance_pwm (s : State) (p : CompositeParams) (n : Nat) : (s.compositeAdvance p n).pwm = s.pwm := by
  unfold State.compositeAdvance; dsimp only; split <;> rfl
@[simp] theorem State.compositeAdvance_lt (s : State) (p : CompositeParams) (n : Nat) : (s.compositeAdvance p n).lt = s.lt := by
  unfold State.compositeAdvance; dsimp only; split <;> rfl
@[simp] theorem State.compositeAdvance_dma (s : State) (p : CompositeParams) (n : Nat) : (s.compositeAdvance p n).dma = s.dma := by
  unfold State.compositeAdvance; dsimp only; split <;> rfl
@[simp] theorem State.compositeAdvance_spi (s : State) (p : CompositeParams) (n : Nat) : (s.compositeAdvance p n).spi = s.spi := by
  unfold State.compositeAdvance; dsimp only; split <;> rfl
@[simp] theorem State.compositeAdvance_port (s : State) (p : CompositeParams) (n : Nat) : (s.compositeAdvance p n).port = s.port := by
  unfold State.compositeAdvance; dsimp only; split <;> rfl
@[simp] theorem State.compositeAdvance_gpio (s : State) (p : CompositeParams) (n : Nat) : (s.compositeAdvance p n).gpio = s.gpio := by
  unfold State.compositeAdvance; dsimp only; split <;> rfl
@[simp] theorem State.compositeAdvance_nvic (s : State) (p : CompositeParams) (n : Nat) : (s.compositeAdvance p n).nvic = s.nvic := by
  unfold State.compositeAdvance; dsimp only; split <;> rfl
@[simp] theorem State.compositeAdvance_dmaFirst (s : State) (p : CompositeParams) (n : Nat) : (s.compositeAdvance p n).dmaFirst = s.dmaFirst := by
  unfold State.compositeAdvance; dsimp only; split <;> rfl
@[simp] theorem State.compositeAdvance_sleep (s : State) (p : CompositeParams) (n : Nat) : (s.compositeAdvance p n).sleep = s.sleep := by
  unfold State.compositeAdvance; dsimp only; split <;> rfl
@[simp] theorem State.compositeAdvance_mem (s : State) (p : CompositeParams) (n : Nat) : (s.compositeAdvance p n).mem = s.mem := by
  unfold State.compositeAdvance; dsimp only; split <;> rfl
@[simp] theorem State.compositeAdvance_inbox (s : State) (p : CompositeParams) (n : Nat) : (s.compositeAdvance p n).inbox = s.inbox := by
  unfold State.compositeAdvance; dsimp only; split <;> rfl
@[simp] theorem State.compositeAdvance_waiting (s : State) (p : CompositeParams) (n : Nat) : (s.compositeAdvance p n).waiting = s.waiting := by
  unfold State.compositeAdvance; dsimp only; split <;> rfl
@[simp] theorem State.compositeAdvance_busData (s : State) (p : CompositeParams) (n : Nat) : (s.compositeAdvance p n).busData = s.busData := by
  unfold State.compositeAdvance; dsimp only; split <;> rfl
@[simp] theorem State.compositeAdvance_lastSent (s : State) (p : CompositeParams) (n : Nat) : (s.compositeAdvance p n).lastSent = s.lastSent := by
  unfold State.compositeAdvance; dsimp only; split <;> rfl
@[simp] theorem State.compositeAdvance_draws (s : State) (p : CompositeParams) (n : Nat) : (s.compositeAdvance p n).draws = s.draws := by
  unfold State.compositeAdvance; dsimp only; split <;> rfl
@[simp] theorem State.compositeAdvance_races (s : State) (p : CompositeParams) (n : Nat) : (s.compositeAdvance p n).races = s.races := by
  unfold State.compositeAdvance; dsimp only; split <;> rfl
/-! `compositeLine` -/
@[simp] theorem State.compositeLine_life (s : State) (p : CompositeParams) (len : Nat) : (s.compositeLine p len).life = s.life := by
  simp [State.compositeLine]
@[simp] theorem State.compositeLine_mode (s : State) (p : CompositeParams) (len : Nat) : (s.compositeLine p len).mode = s.mode := by
  simp [State.compositeLine]
@[simp] theorem State.compositeLine_tim (s : State) (p : CompositeParams) (len : Nat) : (s.compositeLine p len).tim = s.tim := by
  simp [State.compositeLine]
@[simp] theorem State.compositeLine_fb (s : State) (p : CompositeParams) (len : Nat) : (s.compositeLine p len).fb = s.fb := by
  simp [State.compositeLine]
@[simp] theorem State.compositeLine_sub (s : State) (p : CompositeParams) (len : Nat) : (s.compositeLine p len).sub = s.sub := by
  simp [State.compositeLine]
@[simp] theorem State.compositeLine_synced (s : State) (p : CompositeParams) (len : Nat) : (s.compositeLine p len).synced = s.synced := by
  simp [State.compositeLine]
@[simp] theorem State.compositeLine_armed (s : State) (p : CompositeParams) (len : Nat) : (s.compositeLine p len).armed = s.armed := by
  simp [State.compositeLine]
@[simp] theorem State.compositeLine_ldpend (s : State) (p : CompositeParams) (len : Nat) : (s.compositeLine p len).ldpend = s.ldpend := by
  simp [State.compositeLine]
@[simp] theorem State.compositeLine_vsync (s : State) (p : CompositeParams) (len : Nat) : (s.compositeLine p len).vsync = s.vsync := by
  simp [State.compositeLine]
@[simp] theorem State.compositeLine_vpol (s : State) (p : CompositeParams) (len : Nat) : (s.compositeLine p len).vpol = s.vpol := by
  simp [State.compositeLine]
@[simp] theorem State.compositeLine_win (s : State) (p : CompositeParams) (len : Nat) : (s.compositeLine p len).win = s.win := by
  simp [State.compositeLine]
@[simp] theorem State.compositeLine_status (s : State) (p : CompositeParams) (len : Nat) : (s.compositeLine p len).status = s.status := by
  simp [State.compositeLine]
@[simp] theorem State.compositeLine_result (s : State) (p : CompositeParams) (len : Nat) : (s.compositeLine p len).result = s.result := by
  simp [State.compositeLine]
@[simp] theorem State.compositeLine_args (s : State) (p : CompositeParams) (len : Nat) : (s.compositeLine p len).args = s.args := by
  simp [State.compositeLine]
@[simp] theorem State.compositeLine_cfg (s : State) (p : CompositeParams) (len : Nat) : (s.compositeLine p len).cfg = s.cfg := by
  simp [State.compositeLine]
@[simp] theorem State.compositeLine_pwm (s : State) (p : CompositeParams) (len : Nat) : (s.compositeLine p len).pwm = s.pwm := by
  simp [State.compositeLine]
@[simp] theorem State.compositeLine_lt (s : State) (p : CompositeParams) (len : Nat) : (s.compositeLine p len).lt = s.lt := by
  simp [State.compositeLine]
@[simp] theorem State.compositeLine_spi (s : State) (p : CompositeParams) (len : Nat) : (s.compositeLine p len).spi = s.spi := by
  simp [State.compositeLine]
@[simp] theorem State.compositeLine_port (s : State) (p : CompositeParams) (len : Nat) : (s.compositeLine p len).port = s.port := by
  simp [State.compositeLine]
@[simp] theorem State.compositeLine_gpio (s : State) (p : CompositeParams) (len : Nat) : (s.compositeLine p len).gpio = s.gpio := by
  simp [State.compositeLine]
@[simp] theorem State.compositeLine_nvic (s : State) (p : CompositeParams) (len : Nat) : (s.compositeLine p len).nvic = s.nvic := by
  simp [State.compositeLine]
@[simp] theorem State.compositeLine_dmaFirst (s : State) (p : CompositeParams) (len : Nat) : (s.compositeLine p len).dmaFirst = s.dmaFirst := by
  simp [State.compositeLine]
@[simp] theorem State.compositeLine_sleep (s : State) (p : CompositeParams) (len : Nat) : (s.compositeLine p len).sleep = s.sleep := by
  simp [State.compositeLine]
@[simp] theorem State.compositeLine_mem (s : State) (p : CompositeParams) (len : Nat) : (s.compositeLine p len).mem = s.mem := by
  simp [State.compositeLine]
@[simp] theorem State.compositeLine_inbox (s : State) (p : CompositeParams) (len : Nat) : (s.compositeLine p len).inbox = s.inbox := by
  simp [State.compositeLine]
@[simp] theorem State.compositeLine_waiting (s : State) (p : CompositeParams) (len : Nat) : (s.compositeLine p len).waiting = s.waiting := by
  simp [State.compositeLine]
@[simp] theorem State.compositeLine_busData (s : State) (p : CompositeParams) (len : Nat) : (s.compositeLine p len).busData = s.busData := by
  simp [State.compositeLine]
@[simp] theorem State.compositeLine_lastSent (s : State) (p : CompositeParams) (len : Nat) : (s.compositeLine p len).lastSent = s.lastSent := by
  simp [State.compositeLine]
@[simp] theorem State.compositeLine_races (s : State) (p : CompositeParams) (len : Nat) : (s.compositeLine p len).races = s.races := by
  simp [State.compositeLine]
/-! `rasterLine` -/
@[simp] theorem State.rasterLine_life (s : State) : (s.rasterLine).life = s.life := by
  unfold State.rasterLine; split <;> simp
@[simp] theorem State.rasterLine_mode (s : State) : (s.rasterLine).mode = s.mode := by
  unfold State.rasterLine; split <;> simp
@[simp] theorem State.rasterLine_tim (s : State) : (s.rasterLine).tim = s.tim := by
  unfold State.rasterLine; split <;> simp
@[simp] theorem State.rasterLine_fb (s : State) : (s.rasterLine).fb = s.fb := by
  unfold State.rasterLine; split <;> simp
@[simp] theorem State.rasterLine_synced (s : State) : (s.rasterLine).synced = s.synced := by
  unfold State.rasterLine; split <;> simp
@[simp] theorem State.rasterLine_vpol (s : State) : (s.rasterLine).vpol = s.vpol := by
  unfold State.rasterLine; split <;> simp
@[simp] theorem State.rasterLine_win (s : State) : (s.rasterLine).win = s.win := by
  unfold State.rasterLine; split <;> simp
@[simp] theorem State.rasterLine_status (s : State) : (s.rasterLine).status = s.status := by
  unfold State.rasterLine; split <;> simp
@[simp] theorem State.rasterLine_result (s : State) : (s.rasterLine).result = s.result := by
  unfold State.rasterLine; split <;> simp
@[simp] theorem State.rasterLine_args (s : State) : (s.rasterLine).args = s.args := by
  unfold State.rasterLine; split <;> simp
@[simp] theorem State.rasterLine_cfg (s : State) : (s.rasterLine).cfg = s.cfg := by
  unfold State.rasterLine; split <;> simp
@[simp] theorem State.rasterLine_pwm (s : State) : (s.rasterLine).pwm = s.pwm := by
  unfold State.rasterLine; split <;> simp
@[simp] theorem State.rasterLine_lt (s : State) : (s.rasterLine).lt = s.lt := by
  unfold State.rasterLine; split <;> simp
@[simp] theorem State.rasterLine_spi (s : State) : (s.rasterLine).spi = s.spi := by
  unfold State.rasterLine; split <;> simp
@[simp] theorem State.rasterLine_port (s : State) : (s.rasterLine).port = s.port := by
  unfold State.rasterLine; split <;> simp
@[simp] theorem State.rasterLine_nvic (s : State) : (s.rasterLine).nvic = s.nvic := by
  unfold State.rasterLine; split <;> simp
@[simp] theorem State.rasterLine_dmaFirst (s : State) : (s.rasterLine).dmaFirst = s.dmaFirst := by
  unfold State.rasterLine; split <;> simp
@[simp] theorem State.rasterLine_sleep (s : State) : (s.rasterLine).sleep = s.sleep := by
  unfold State.rasterLine; split <;> simp
@[simp] theorem State.rasterLine_mem (s : State) : (s.rasterLine).mem = s.mem := by
  unfold State.rasterLine; split <;> simp
@[simp] theorem State.rasterLine_inbox (s : State) : (s.rasterLine).inbox = s.inbox := by
  unfold State.rasterLine; split <;> simp
@[simp] theorem State.rasterLine_waiting (s : State) : (s.rasterLine).waiting = s.waiting := by
  unfold State.rasterLine; split <;> simp
@[simp] theorem State.rasterLine_busData (s : State) : (s.rasterLine).busData = s.busData := by
  unfold State.rasterLine; split <;> simp
@[simp] theorem State.rasterLine_lastSent (s : State) : (s.rasterLine).lastSent = s.lastSent := by
  unfold State.rasterLine; split <;> simp
@[simp] theorem State.rasterLine_races (s : State) : (s.rasterLine).races = s.races := by
  unfold State.rasterLine; split <;> simp
/-! `checkGuard` -/
@[simp] theorem State.checkGuard_life (s : State) (a : Addr) (n : Nat) : (s.checkGuard a n).life = s.life := by
  unfold State.checkGuard; split <;> rfl
@[simp] theorem State.checkGuard_mode (s : State) (a : Addr) (n : Nat) : (s.checkGuard a n).mode = s.mode := by
  unfold State.checkGuard; split <;> rfl
@[simp] theorem State.checkGuard_tim (s : State) (a : Addr) (n : Nat) : (s.checkGuard a n).tim = s.tim := by
  unfold State.checkGuard; split <;> rfl
@[simp] theorem State.checkGuard_fb (s : State) (a : Addr) (n : Nat) : (s.checkGuard a n).fb = s.fb := by
  unfold State.checkGuard; split <;> rfl
@[simp] theorem State.checkGuard_line (s : State) (a : Addr) (n : Nat) : (s.checkGuard a n).line = s.line := by
  unfold State.checkGuard; split <;> rfl
@[simp] theorem State.checkGuard_sub (s : State) (a : Addr) (n : Nat) : (s.checkGuard a n).sub = s.sub := by
  unfold State.checkGuard; split <;> rfl
@[simp] theorem State.checkGuard_phase (s : State) (a : Addr) (n : Nat) : (s.checkGuard a n).phase = s.phase := by
  unfold State.checkGuard; split <;> rfl
@[simp] theorem State.checkGuard_frame (s : State) (a : Addr) (n : Nat) : (s.checkGuard a n).frame = s.frame := by
  unfold State.checkGuard; split <;> rfl
@[simp] theorem State.checkGuard_synced (s : State) (a : Addr) (n : Nat) : (s.checkGuard a n).synced = s.synced := by
  unfold State.checkGuard; split <;> rfl
@[simp] theorem State.checkGuard_armed (s : State) (a : Addr) (n : Nat) : (s.checkGuard a n).armed = s.armed := by
  unfold State.checkGuard; split <;> rfl
@[simp] theorem State.checkGuard_ldpend (s : State) (a : Addr) (n : Nat) : (s.checkGuard a n).ldpend = s.ldpend := by
  unfold State.checkGuard; split <;> rfl
@[simp] theorem State.checkGuard_vsync (s : State) (a : Addr) (n : Nat) : (s.checkGuard a n).vsync = s.vsync := by
  unfold State.checkGuard; split <;> rfl
@[simp] theorem State.checkGuard_vpol (s : State) (a : Addr) (n : Nat) : (s.checkGuard a n).vpol = s.vpol := by
  unfold State.checkGuard; split <;> rfl
@[simp] theorem State.checkGuard_cslot0 (s : State) (a : Addr) (n : Nat) : (s.checkGuard a n).cslot0 = s.cslot0 := by
  unfold State.checkGuard; split <;> rfl
@[simp] theorem State.checkGuard_cslot1 (s : State) (a : Addr) (n : Nat) : (s.checkGuard a n).cslot1 = s.cslot1 := by
  unfold State.checkGuard; split <;> rfl
@[simp] theorem State.checkGuard_win (s : State) (a : Addr) (n : Nat) : (s.checkGuard a n).win = s.win := by
  unfold State.checkGuard; split <;> rfl
@[simp] theorem State.checkGuard_status (s : State) (a : Addr) (n : Nat) : (s.checkGuard a n).status = s.status := by
  unfold State.checkGuard; split <;> rfl
@[simp] theorem State.checkGuard_result (s : State) (a : Addr) (n : Nat) : (s.checkGuard a n).result = s.result := by
  unfold State.checkGuard; split <;> rfl
@[simp] theorem State.checkGuard_args (s : State) (a : Addr) (n : Nat) : (s.checkGuard a n).args = s.args := by
  unfold State.checkGuard; split <;> rfl
@[simp] theorem State.checkGuard_cfg (s : State) (a : Addr) (n : Nat) : (s.checkGuard a n).cfg = s.cfg := by
  unfold State.checkGuard; split <;> rfl
@[simp] theorem State.checkGuard_pwm (s : State) (a : Addr) (n : Nat) : (s.checkGuard a n).pwm = s.pwm := by
  unfold State.checkGuard; split <;> rfl
@[simp] theorem State.checkGuard_lt (s : State) (a : Addr) (n : Nat) : (s.checkGuard a n).lt = s.lt := by
  unfold State.checkGuard; split <;> rfl
@[simp] theorem State.checkGuard_dma (s : State) (a : Addr) (n : Nat) : (s.checkGuard a n).dma = s.dma := by
  unfold State.checkGuard; split <;> rfl
@[simp] theorem State.checkGuard_spi (s : State) (a : Addr) (n : Nat) : (s.checkGuard a n).spi = s.spi := by
  unfold State.checkGuard; split <;> rfl
@[simp] theorem State.checkGuard_port (s : State) (a : Addr) (n : Nat) : (s.checkGuard a n).port = s.port := by
  unfold State.checkGuard; split <;> rfl
@[simp] theorem State.checkGuard_gpio (s : State) (a : Addr) (n : Nat) : (s.checkGuard a n).gpio = s.gpio := by
  unfold State.checkGuard; split <;> rfl
@[simp] theorem State.checkGuard_nvic (s : State) (a : Addr) (n : Nat) : (s.checkGuard a n).nvic = s.nvic := by
  unfold State.checkGuard; split <;> rfl
@[simp] theorem State.checkGuard_dmaFirst (s : State) (a : Addr) (n : Nat) : (s.checkGuard a n).dmaFirst = s.dmaFirst := by
  unfold State.checkGuard; split <;> rfl
@[simp] theorem State.checkGuard_sleep (s : State) (a : Addr) (n : Nat) : (s.checkGuard a n).sleep = s.sleep := by
  unfold State.checkGuard; split <;> rfl
@[simp] theorem State.checkGuard_mem (s : State) (a : Addr) (n : Nat) : (s.checkGuard a n).mem = s.mem := by
  unfold State.checkGuard; split <;> rfl
@[simp] theorem State.checkGuard_inbox (s : State) (a : Addr) (n : Nat) : (s.checkGuard a n).inbox = s.inbox := by
  unfold State.checkGuard; split <;> rfl
@[simp] theorem State.checkGuard_waiting (s : State) (a : Addr) (n : Nat) : (s.checkGuard a n).waiting = s.waiting := by
  unfold State.checkGuard; split <;> rfl
@[simp] theorem State.checkGuard_busData (s : State) (a : Addr) (n : Nat) : (s.checkGuard a n).busData = s.busData := by
  unfold State.checkGuard; split <;> rfl
@[simp] theorem State.checkGuard_lastSent (s : State) (a : Addr) (n : Nat) : (s.checkGuard a n).lastSent = s.lastSent := by
  unfold State.checkGuard; split <;> rfl
@[simp] theorem State.checkGuard_draws (s : State) (a : Addr) (n : Nat) : (s.checkGuard a n).draws = s.draws := by
  unfold State.checkGuard; split <;> rfl
@[simp] theorem State.checkGuard_races (s : State) (a : Addr) (n : Nat) : (s.checkGuard a n).races = s.races := by
  unfold State.checkGuard; split <;> rfl
/-! `writeMemory` -/
@[simp] theorem State.writeMemory_life (s : State) (a : Addr) (w : Width) (v : Word) : (s.writeMemory a w v).life = s.life := by
  simp [State.writeMemory]
@[simp] theorem State.writeMemory_mode (s : State) (a : Addr) (w : Width) (v : Word) : (s.writeMemory a w v).mode = s.mode := by
  simp [State.writeMemory]
@[simp] theorem State.writeMemory_tim (s : State) (a : Addr) (w : Width) (v : Word) : (s.writeMemory a w v).tim = s.tim := by
  simp [State.writeMemory]
@[simp] theorem State.writeMemory_fb (s : State) (a : Addr) (w : Width) (v : Word) : (s.writeMemory a w v).fb = s.fb := by
  simp [State.writeMemory]
@[simp] theorem State.writeMemory_line (s : State) (a : Addr) (w : Width) (v : Word) : (s.writeMemory a w v).line = s.line := by
  simp [State.writeMemory]
@[simp] theorem State.writeMemory_sub (s : State) (a : Addr) (w : Width) (v : Word) : (s.writeMemory a w v).sub = s.sub := by
  simp [State.writeMemory]
@[simp] theorem State.writeMemory_phase (s : State) (a : Addr) (w : Width) (v : Word) : (s.writeMemory a w v).phase = s.phase := by
  simp [State.writeMemory]
@[simp] theorem State.writeMemory_frame (s : State) (a : Addr) (w : Width) (v : Word) : (s.writeMemory a w v).frame = s.frame := by
  simp [State.writeMemory]
@[simp] theorem State.writeMemory_synced (s : State) (a : Addr) (w : Width) (v : Word) : (s.writeMemory a w v).synced = s.synced := by
  simp [State.writeMemory]
@[simp] theorem State.writeMemory_armed (s : State) (a : Addr) (w : Width) (v : Word) : (s.writeMemory a w v).armed = s.armed := by
  simp [State.writeMemory]
@[simp] theorem State.writeMemory_ldpend (s : State) (a : Addr) (w : Width) (v : Word) : (s.writeMemory a w v).ldpend = s.ldpend := by
  simp [State.writeMemory]
@[simp] theorem State.writeMemory_vsync (s : State) (a : Addr) (w : Width) (v : Word) : (s.writeMemory a w v).vsync = s.vsync := by
  simp [State.writeMemory]
@[simp] theorem State.writeMemory_vpol (s : State) (a : Addr) (w : Width) (v : Word) : (s.writeMemory a w v).vpol = s.vpol := by
  simp [State.writeMemory]
@[simp] theorem State.writeMemory_cslot0 (s : State) (a : Addr) (w : Width) (v : Word) : (s.writeMemory a w v).cslot0 = s.cslot0 := by
  simp [State.writeMemory]
@[simp] theorem State.writeMemory_cslot1 (s : State) (a : Addr) (w : Width) (v : Word) : (s.writeMemory a w v).cslot1 = s.cslot1 := by
  simp [State.writeMemory]
@[simp] theorem State.writeMemory_win (s : State) (a : Addr) (w : Width) (v : Word) : (s.writeMemory a w v).win = s.win := by
  simp [State.writeMemory]
@[simp] theorem State.writeMemory_status (s : State) (a : Addr) (w : Width) (v : Word) : (s.writeMemory a w v).status = s.status := by
  simp [State.writeMemory]
@[simp] theorem State.writeMemory_result (s : State) (a : Addr) (w : Width) (v : Word) : (s.writeMemory a w v).result = s.result := by
  simp [State.writeMemory]
@[simp] theorem State.writeMemory_args (s : State) (a : Addr) (w : Width) (v : Word) : (s.writeMemory a w v).args = s.args := by
  simp [State.writeMemory]
@[simp] theorem State.writeMemory_cfg (s : State) (a : Addr) (w : Width) (v : Word) : (s.writeMemory a w v).cfg = s.cfg := by
  simp [State.writeMemory]
@[simp] theorem State.writeMemory_pwm (s : State) (a : Addr) (w : Width) (v : Word) : (s.writeMemory a w v).pwm = s.pwm := by
  simp [State.writeMemory]
@[simp] theorem State.writeMemory_lt (s : State) (a : Addr) (w : Width) (v : Word) : (s.writeMemory a w v).lt = s.lt := by
  simp [State.writeMemory]
@[simp] theorem State.writeMemory_spi (s : State) (a : Addr) (w : Width) (v : Word) : (s.writeMemory a w v).spi = s.spi := by
  simp [State.writeMemory]
@[simp] theorem State.writeMemory_port (s : State) (a : Addr) (w : Width) (v : Word) : (s.writeMemory a w v).port = s.port := by
  simp [State.writeMemory]
@[simp] theorem State.writeMemory_gpio (s : State) (a : Addr) (w : Width) (v : Word) : (s.writeMemory a w v).gpio = s.gpio := by
  simp [State.writeMemory]
@[simp] theorem State.writeMemory_nvic (s : State) (a : Addr) (w : Width) (v : Word) : (s.writeMemory a w v).nvic = s.nvic := by
  simp [State.writeMemory]
@[simp] theorem State.writeMemory_dmaFirst (s : State) (a : Addr) (w : Width) (v : Word) : (s.writeMemory a w v).dmaFirst = s.dmaFirst := by
  simp [State.writeMemory]
@[simp] theorem State.writeMemory_sleep (s : State) (a : Addr) (w : Width) (v : Word) : (s.writeMemory a w v).sleep = s.sleep := by
  simp [State.writeMemory]
@[simp] theorem State.writeMemory_inbox (s : State) (a : Addr) (w : Width) (v : Word) : (s.writeMemory a w v).inbox = s.inbox := by
  simp [State.writeMemory]
@[simp] theorem State.writeMemory_waiting (s : State) (a : Addr) (w : Width) (v : Word) : (s.writeMemory a w v).waiting = s.waiting := by
  simp [State.writeMemory]
@[simp] theorem State.writeMemory_busData (s : State) (a : Addr) (w : Width) (v : Word) : (s.writeMemory a w v).busData = s.busData := by
  simp [State.writeMemory]
@[simp] theorem State.writeMemory_lastSent (s : State) (a : Addr) (w : Width) (v : Word) : (s.writeMemory a w v).lastSent = s.lastSent := by
  simp [State.writeMemory]
@[simp] theorem State.writeMemory_draws (s : State) (a : Addr) (w : Width) (v : Word) : (s.writeMemory a w v).draws = s.draws := by
  simp [State.writeMemory]
/-! `writeAlias` -/
@[simp] theorem State.writeAlias_life (s : State) (a : Addr) (v : Word) : (s.writeAlias a v).life = s.life := by
  simp [State.writeAlias]
@[simp] theorem State.writeAlias_mode (s : State) (a : Addr) (v : Word) : (s.writeAlias a v).mode = s.mode := by
  simp [State.writeAlias]
@[simp] theorem State.writeAlias_tim (s : State) (a : Addr) (v : Word) : (s.writeAlias a v).tim = s.tim := by
  simp [State.writeAlias]
@[simp] theorem State.writeAlias_fb (s : State) (a : Addr) (v : Word) : (s.writeAlias a v).fb = s.fb := by
  simp [State.writeAlias]
@[simp] theorem State.writeAlias_line (s : State) (a : Addr) (v : Word) : (s.writeAlias a v).line = s.line := by
  simp [State.writeAlias]
@[simp] theorem State.writeAlias_sub (s : State) (a : Addr) (v : Word) : (s.writeAlias a v).sub = s.sub := by
  simp [State.writeAlias]
@[simp] theorem State.writeAlias_phase (s : State) (a : Addr) (v : Word) : (s.writeAlias a v).phase = s.phase := by
  simp [State.writeAlias]
@[simp] theorem State.writeAlias_frame (s : State) (a : Addr) (v : Word) : (s.writeAlias a v).frame = s.frame := by
  simp [State.writeAlias]
@[simp] theorem State.writeAlias_synced (s : State) (a : Addr) (v : Word) : (s.writeAlias a v).synced = s.synced := by
  simp [State.writeAlias]
@[simp] theorem State.writeAlias_armed (s : State) (a : Addr) (v : Word) : (s.writeAlias a v).armed = s.armed := by
  simp [State.writeAlias]
@[simp] theorem State.writeAlias_ldpend (s : State) (a : Addr) (v : Word) : (s.writeAlias a v).ldpend = s.ldpend := by
  simp [State.writeAlias]
@[simp] theorem State.writeAlias_vsync (s : State) (a : Addr) (v : Word) : (s.writeAlias a v).vsync = s.vsync := by
  simp [State.writeAlias]
@[simp] theorem State.writeAlias_vpol (s : State) (a : Addr) (v : Word) : (s.writeAlias a v).vpol = s.vpol := by
  simp [State.writeAlias]
@[simp] theorem State.writeAlias_cslot0 (s : State) (a : Addr) (v : Word) : (s.writeAlias a v).cslot0 = s.cslot0 := by
  simp [State.writeAlias]
@[simp] theorem State.writeAlias_cslot1 (s : State) (a : Addr) (v : Word) : (s.writeAlias a v).cslot1 = s.cslot1 := by
  simp [State.writeAlias]
@[simp] theorem State.writeAlias_win (s : State) (a : Addr) (v : Word) : (s.writeAlias a v).win = s.win := by
  simp [State.writeAlias]
@[simp] theorem State.writeAlias_status (s : State) (a : Addr) (v : Word) : (s.writeAlias a v).status = s.status := by
  simp [State.writeAlias]
@[simp] theorem State.writeAlias_result (s : State) (a : Addr) (v : Word) : (s.writeAlias a v).result = s.result := by
  simp [State.writeAlias]
@[simp] theorem State.writeAlias_args (s : State) (a : Addr) (v : Word) : (s.writeAlias a v).args = s.args := by
  simp [State.writeAlias]
@[simp] theorem State.writeAlias_cfg (s : State) (a : Addr) (v : Word) : (s.writeAlias a v).cfg = s.cfg := by
  simp [State.writeAlias]
@[simp] theorem State.writeAlias_pwm (s : State) (a : Addr) (v : Word) : (s.writeAlias a v).pwm = s.pwm := by
  simp [State.writeAlias]
@[simp] theorem State.writeAlias_lt (s : State) (a : Addr) (v : Word) : (s.writeAlias a v).lt = s.lt := by
  simp [State.writeAlias]
@[simp] theorem State.writeAlias_spi (s : State) (a : Addr) (v : Word) : (s.writeAlias a v).spi = s.spi := by
  simp [State.writeAlias]
@[simp] theorem State.writeAlias_port (s : State) (a : Addr) (v : Word) : (s.writeAlias a v).port = s.port := by
  simp [State.writeAlias]
@[simp] theorem State.writeAlias_gpio (s : State) (a : Addr) (v : Word) : (s.writeAlias a v).gpio = s.gpio := by
  simp [State.writeAlias]
@[simp] theorem State.writeAlias_nvic (s : State) (a : Addr) (v : Word) : (s.writeAlias a v).nvic = s.nvic := by
  simp [State.writeAlias]
@[simp] theorem State.writeAlias_dmaFirst (s : State) (a : Addr) (v : Word) : (s.writeAlias a v).dmaFirst = s.dmaFirst := by
  simp [State.writeAlias]
@[simp] theorem State.writeAlias_sleep (s : State) (a : Addr) (v : Word) : (s.writeAlias a v).sleep = s.sleep := by
  simp [State.writeAlias]
@[simp] theorem State.writeAlias_inbox (s : State) (a : Addr) (v : Word) : (s.writeAlias a v).inbox = s.inbox := by
  simp [State.writeAlias]
@[simp] theorem State.writeAlias_waiting (s : State) (a : Addr) (v : Word) : (s.writeAlias a v).waiting = s.waiting := by
  simp [State.writeAlias]
@[simp] theorem State.writeAlias_busData (s : State) (a : Addr) (v : Word) : (s.writeAlias a v).busData = s.busData := by
  simp [State.writeAlias]
@[simp] theorem State.writeAlias_lastSent (s : State) (a : Addr) (v : Word) : (s.writeAlias a v).lastSent = s.lastSent := by
  simp [State.writeAlias]
@[simp] theorem State.writeAlias_draws (s : State) (a : Addr) (v : Word) : (s.writeAlias a v).draws = s.draws := by
  simp [State.writeAlias]
/-! `readAlias` -/
@[simp] theorem State.readAlias_life (s : State) (a : Addr) : (s.readAlias a).life = s.life := by
  simp only [State.readAlias]
@[simp] theorem State.readAlias_mode (s : State) (a : Addr) : (s.readAlias a).mode = s.mode := by
  simp only [State.readAlias]
@[simp] theorem State.readAlias_tim (s : State) (a : Addr) : (s.readAlias a).tim = s.tim := by
  simp only [State.readAlias]
@[simp] theorem State.readAlias_fb (s : State) (a : Addr) : (s.readAlias a).fb = s.fb := by
  simp only [State.readAlias]
@[simp] theorem State.readAlias_line (s : State) (a : Addr) : (s.readAlias a).line = s.line := by
  simp only [State.readAlias]
@[simp] theorem State.readAlias_sub (s : State) (a : Addr) : (s.readAlias a).sub = s.sub := by
  simp only [State.readAlias]
@[simp] theorem State.readAlias_phase (s : State) (a : Addr) : (s.readAlias a).phase = s.phase := by
  simp only [State.readAlias]
@[simp] theorem State.readAlias_frame (s : State) (a : Addr) : (s.readAlias a).frame = s.frame := by
  simp only [State.readAlias]
@[simp] theorem State.readAlias_synced (s : State) (a : Addr) : (s.readAlias a).synced = s.synced := by
  simp only [State.readAlias]
@[simp] theorem State.readAlias_armed (s : State) (a : Addr) : (s.readAlias a).armed = s.armed := by
  simp only [State.readAlias]
@[simp] theorem State.readAlias_ldpend (s : State) (a : Addr) : (s.readAlias a).ldpend = s.ldpend := by
  simp only [State.readAlias]
@[simp] theorem State.readAlias_vsync (s : State) (a : Addr) : (s.readAlias a).vsync = s.vsync := by
  simp only [State.readAlias]
@[simp] theorem State.readAlias_vpol (s : State) (a : Addr) : (s.readAlias a).vpol = s.vpol := by
  simp only [State.readAlias]
@[simp] theorem State.readAlias_cslot0 (s : State) (a : Addr) : (s.readAlias a).cslot0 = s.cslot0 := by
  simp only [State.readAlias]
@[simp] theorem State.readAlias_cslot1 (s : State) (a : Addr) : (s.readAlias a).cslot1 = s.cslot1 := by
  simp only [State.readAlias]
@[simp] theorem State.readAlias_win (s : State) (a : Addr) : (s.readAlias a).win = s.win := by
  simp only [State.readAlias]
@[simp] theorem State.readAlias_status (s : State) (a : Addr) : (s.readAlias a).status = s.status := by
  simp only [State.readAlias]
@[simp] theorem State.readAlias_result (s : State) (a : Addr) : (s.readAlias a).result = s.result := by
  simp only [State.readAlias]
@[simp] theorem State.readAlias_args (s : State) (a : Addr) : (s.readAlias a).args = s.args := by
  simp only [State.readAlias]
@[simp] theorem State.readAlias_cfg (s : State) (a : Addr) : (s.readAlias a).cfg = s.cfg := by
  simp only [State.readAlias]
@[simp] theorem State.readAlias_fault (s : State) (a : Addr) : (s.readAlias a).fault = s.fault := by
  simp only [State.readAlias]
@[simp] theorem State.readAlias_pwm (s : State) (a : Addr) : (s.readAlias a).pwm = s.pwm := by
  simp only [State.readAlias]
@[simp] theorem State.readAlias_lt (s : State) (a : Addr) : (s.readAlias a).lt = s.lt := by
  simp only [State.readAlias]
@[simp] theorem State.readAlias_dma (s : State) (a : Addr) : (s.readAlias a).dma = s.dma := by
  simp only [State.readAlias]
@[simp] theorem State.readAlias_spi (s : State) (a : Addr) : (s.readAlias a).spi = s.spi := by
  simp only [State.readAlias]
@[simp] theorem State.readAlias_port (s : State) (a : Addr) : (s.readAlias a).port = s.port := by
  simp only [State.readAlias]
@[simp] theorem State.readAlias_gpio (s : State) (a : Addr) : (s.readAlias a).gpio = s.gpio := by
  simp only [State.readAlias]
@[simp] theorem State.readAlias_nvic (s : State) (a : Addr) : (s.readAlias a).nvic = s.nvic := by
  simp only [State.readAlias]
@[simp] theorem State.readAlias_dmaFirst (s : State) (a : Addr) : (s.readAlias a).dmaFirst = s.dmaFirst := by
  simp only [State.readAlias]
@[simp] theorem State.readAlias_sleep (s : State) (a : Addr) : (s.readAlias a).sleep = s.sleep := by
  simp only [State.readAlias]
@[simp] theorem State.readAlias_mem (s : State) (a : Addr) : (s.readAlias a).mem = s.mem := by
  simp only [State.readAlias]
@[simp] theorem State.readAlias_inbox (s : State) (a : Addr) : (s.readAlias a).inbox = s.inbox := by
  simp only [State.readAlias]
@[simp] theorem State.readAlias_waiting (s : State) (a : Addr) : (s.readAlias a).waiting = s.waiting := by
  simp only [State.readAlias]
@[simp] theorem State.readAlias_lastSent (s : State) (a : Addr) : (s.readAlias a).lastSent = s.lastSent := by
  simp only [State.readAlias]
@[simp] theorem State.readAlias_draws (s : State) (a : Addr) : (s.readAlias a).draws = s.draws := by
  simp only [State.readAlias]
@[simp] theorem State.readAlias_races (s : State) (a : Addr) : (s.readAlias a).races = s.races := by
  simp only [State.readAlias]
/-! `readWindow` -/
@[simp] theorem State.readWindow_life (s : State) (off : BitVec 8) (w : Width) : (s.readWindow off w).life = s.life := by
  unfold State.readWindow; split <;> rfl
@[simp] theorem State.readWindow_mode (s : State) (off : BitVec 8) (w : Width) : (s.readWindow off w).mode = s.mode := by
  unfold State.readWindow; split <;> rfl
@[simp] theorem State.readWindow_tim (s : State) (off : BitVec 8) (w : Width) : (s.readWindow off w).tim = s.tim := by
  unfold State.readWindow; split <;> rfl
@[simp] theorem State.readWindow_fb (s : State) (off : BitVec 8) (w : Width) : (s.readWindow off w).fb = s.fb := by
  unfold State.readWindow; split <;> rfl
@[simp] theorem State.readWindow_line (s : State) (off : BitVec 8) (w : Width) : (s.readWindow off w).line = s.line := by
  unfold State.readWindow; split <;> rfl
@[simp] theorem State.readWindow_sub (s : State) (off : BitVec 8) (w : Width) : (s.readWindow off w).sub = s.sub := by
  unfold State.readWindow; split <;> rfl
@[simp] theorem State.readWindow_phase (s : State) (off : BitVec 8) (w : Width) : (s.readWindow off w).phase = s.phase := by
  unfold State.readWindow; split <;> rfl
@[simp] theorem State.readWindow_frame (s : State) (off : BitVec 8) (w : Width) : (s.readWindow off w).frame = s.frame := by
  unfold State.readWindow; split <;> rfl
@[simp] theorem State.readWindow_synced (s : State) (off : BitVec 8) (w : Width) : (s.readWindow off w).synced = s.synced := by
  unfold State.readWindow; split <;> rfl
@[simp] theorem State.readWindow_armed (s : State) (off : BitVec 8) (w : Width) : (s.readWindow off w).armed = s.armed := by
  unfold State.readWindow; split <;> rfl
@[simp] theorem State.readWindow_ldpend (s : State) (off : BitVec 8) (w : Width) : (s.readWindow off w).ldpend = s.ldpend := by
  unfold State.readWindow; split <;> rfl
@[simp] theorem State.readWindow_vsync (s : State) (off : BitVec 8) (w : Width) : (s.readWindow off w).vsync = s.vsync := by
  unfold State.readWindow; split <;> rfl
@[simp] theorem State.readWindow_vpol (s : State) (off : BitVec 8) (w : Width) : (s.readWindow off w).vpol = s.vpol := by
  unfold State.readWindow; split <;> rfl
@[simp] theorem State.readWindow_cslot0 (s : State) (off : BitVec 8) (w : Width) : (s.readWindow off w).cslot0 = s.cslot0 := by
  unfold State.readWindow; split <;> rfl
@[simp] theorem State.readWindow_cslot1 (s : State) (off : BitVec 8) (w : Width) : (s.readWindow off w).cslot1 = s.cslot1 := by
  unfold State.readWindow; split <;> rfl
@[simp] theorem State.readWindow_win (s : State) (off : BitVec 8) (w : Width) : (s.readWindow off w).win = s.win := by
  unfold State.readWindow; split <;> rfl
@[simp] theorem State.readWindow_status (s : State) (off : BitVec 8) (w : Width) : (s.readWindow off w).status = s.status := by
  unfold State.readWindow; split <;> rfl
@[simp] theorem State.readWindow_result (s : State) (off : BitVec 8) (w : Width) : (s.readWindow off w).result = s.result := by
  unfold State.readWindow; split <;> rfl
@[simp] theorem State.readWindow_args (s : State) (off : BitVec 8) (w : Width) : (s.readWindow off w).args = s.args := by
  unfold State.readWindow; split <;> rfl
@[simp] theorem State.readWindow_cfg (s : State) (off : BitVec 8) (w : Width) : (s.readWindow off w).cfg = s.cfg := by
  unfold State.readWindow; split <;> rfl
@[simp] theorem State.readWindow_pwm (s : State) (off : BitVec 8) (w : Width) : (s.readWindow off w).pwm = s.pwm := by
  unfold State.readWindow; split <;> rfl
@[simp] theorem State.readWindow_lt (s : State) (off : BitVec 8) (w : Width) : (s.readWindow off w).lt = s.lt := by
  unfold State.readWindow; split <;> rfl
@[simp] theorem State.readWindow_dma (s : State) (off : BitVec 8) (w : Width) : (s.readWindow off w).dma = s.dma := by
  unfold State.readWindow; split <;> rfl
@[simp] theorem State.readWindow_spi (s : State) (off : BitVec 8) (w : Width) : (s.readWindow off w).spi = s.spi := by
  unfold State.readWindow; split <;> rfl
@[simp] theorem State.readWindow_port (s : State) (off : BitVec 8) (w : Width) : (s.readWindow off w).port = s.port := by
  unfold State.readWindow; split <;> rfl
@[simp] theorem State.readWindow_gpio (s : State) (off : BitVec 8) (w : Width) : (s.readWindow off w).gpio = s.gpio := by
  unfold State.readWindow; split <;> rfl
@[simp] theorem State.readWindow_nvic (s : State) (off : BitVec 8) (w : Width) : (s.readWindow off w).nvic = s.nvic := by
  unfold State.readWindow; split <;> rfl
@[simp] theorem State.readWindow_dmaFirst (s : State) (off : BitVec 8) (w : Width) : (s.readWindow off w).dmaFirst = s.dmaFirst := by
  unfold State.readWindow; split <;> rfl
@[simp] theorem State.readWindow_sleep (s : State) (off : BitVec 8) (w : Width) : (s.readWindow off w).sleep = s.sleep := by
  unfold State.readWindow; split <;> rfl
@[simp] theorem State.readWindow_mem (s : State) (off : BitVec 8) (w : Width) : (s.readWindow off w).mem = s.mem := by
  unfold State.readWindow; split <;> rfl
@[simp] theorem State.readWindow_inbox (s : State) (off : BitVec 8) (w : Width) : (s.readWindow off w).inbox = s.inbox := by
  unfold State.readWindow; split <;> rfl
@[simp] theorem State.readWindow_waiting (s : State) (off : BitVec 8) (w : Width) : (s.readWindow off w).waiting = s.waiting := by
  unfold State.readWindow; split <;> rfl
@[simp] theorem State.readWindow_lastSent (s : State) (off : BitVec 8) (w : Width) : (s.readWindow off w).lastSent = s.lastSent := by
  unfold State.readWindow; split <;> rfl
@[simp] theorem State.readWindow_draws (s : State) (off : BitVec 8) (w : Width) : (s.readWindow off w).draws = s.draws := by
  unfold State.readWindow; split <;> rfl
@[simp] theorem State.readWindow_races (s : State) (off : BitVec 8) (w : Width) : (s.readWindow off w).races = s.races := by
  unfold State.readWindow; split <;> rfl
/-! `writeRegister` -/
@[simp] theorem State.writeRegister_life (s : State) (off : Nat) (v : Word) : (s.writeRegister off v).life = s.life := by
  unfold State.writeRegister; split <;> rfl
@[simp] theorem State.writeRegister_mode (s : State) (off : Nat) (v : Word) : (s.writeRegister off v).mode = s.mode := by
  unfold State.writeRegister; split <;> rfl
@[simp] theorem State.writeRegister_tim (s : State) (off : Nat) (v : Word) : (s.writeRegister off v).tim = s.tim := by
  unfold State.writeRegister; split <;> rfl
@[simp] theorem State.writeRegister_fb (s : State) (off : Nat) (v : Word) : (s.writeRegister off v).fb = s.fb := by
  unfold State.writeRegister; split <;> rfl
@[simp] theorem State.writeRegister_line (s : State) (off : Nat) (v : Word) : (s.writeRegister off v).line = s.line := by
  unfold State.writeRegister; split <;> rfl
@[simp] theorem State.writeRegister_sub (s : State) (off : Nat) (v : Word) : (s.writeRegister off v).sub = s.sub := by
  unfold State.writeRegister; split <;> rfl
@[simp] theorem State.writeRegister_phase (s : State) (off : Nat) (v : Word) : (s.writeRegister off v).phase = s.phase := by
  unfold State.writeRegister; split <;> rfl
@[simp] theorem State.writeRegister_frame (s : State) (off : Nat) (v : Word) : (s.writeRegister off v).frame = s.frame := by
  unfold State.writeRegister; split <;> rfl
@[simp] theorem State.writeRegister_synced (s : State) (off : Nat) (v : Word) : (s.writeRegister off v).synced = s.synced := by
  unfold State.writeRegister; split <;> rfl
@[simp] theorem State.writeRegister_armed (s : State) (off : Nat) (v : Word) : (s.writeRegister off v).armed = s.armed := by
  unfold State.writeRegister; split <;> rfl
@[simp] theorem State.writeRegister_ldpend (s : State) (off : Nat) (v : Word) : (s.writeRegister off v).ldpend = s.ldpend := by
  unfold State.writeRegister; split <;> rfl
@[simp] theorem State.writeRegister_vsync (s : State) (off : Nat) (v : Word) : (s.writeRegister off v).vsync = s.vsync := by
  unfold State.writeRegister; split <;> rfl
@[simp] theorem State.writeRegister_vpol (s : State) (off : Nat) (v : Word) : (s.writeRegister off v).vpol = s.vpol := by
  unfold State.writeRegister; split <;> rfl
@[simp] theorem State.writeRegister_cslot0 (s : State) (off : Nat) (v : Word) : (s.writeRegister off v).cslot0 = s.cslot0 := by
  unfold State.writeRegister; split <;> rfl
@[simp] theorem State.writeRegister_cslot1 (s : State) (off : Nat) (v : Word) : (s.writeRegister off v).cslot1 = s.cslot1 := by
  unfold State.writeRegister; split <;> rfl
@[simp] theorem State.writeRegister_win (s : State) (off : Nat) (v : Word) : (s.writeRegister off v).win = s.win := by
  unfold State.writeRegister; split <;> rfl
@[simp] theorem State.writeRegister_status (s : State) (off : Nat) (v : Word) : (s.writeRegister off v).status = s.status := by
  unfold State.writeRegister; split <;> rfl
@[simp] theorem State.writeRegister_result (s : State) (off : Nat) (v : Word) : (s.writeRegister off v).result = s.result := by
  unfold State.writeRegister; split <;> rfl
@[simp] theorem State.writeRegister_fault (s : State) (off : Nat) (v : Word) : (s.writeRegister off v).fault = s.fault := by
  unfold State.writeRegister; split <;> rfl
@[simp] theorem State.writeRegister_pwm (s : State) (off : Nat) (v : Word) : (s.writeRegister off v).pwm = s.pwm := by
  unfold State.writeRegister; split <;> rfl
@[simp] theorem State.writeRegister_lt (s : State) (off : Nat) (v : Word) : (s.writeRegister off v).lt = s.lt := by
  unfold State.writeRegister; split <;> rfl
@[simp] theorem State.writeRegister_dma (s : State) (off : Nat) (v : Word) : (s.writeRegister off v).dma = s.dma := by
  unfold State.writeRegister; split <;> rfl
@[simp] theorem State.writeRegister_spi (s : State) (off : Nat) (v : Word) : (s.writeRegister off v).spi = s.spi := by
  unfold State.writeRegister; split <;> rfl
@[simp] theorem State.writeRegister_port (s : State) (off : Nat) (v : Word) : (s.writeRegister off v).port = s.port := by
  unfold State.writeRegister; split <;> rfl
@[simp] theorem State.writeRegister_gpio (s : State) (off : Nat) (v : Word) : (s.writeRegister off v).gpio = s.gpio := by
  unfold State.writeRegister; split <;> rfl
@[simp] theorem State.writeRegister_nvic (s : State) (off : Nat) (v : Word) : (s.writeRegister off v).nvic = s.nvic := by
  unfold State.writeRegister; split <;> rfl
@[simp] theorem State.writeRegister_dmaFirst (s : State) (off : Nat) (v : Word) : (s.writeRegister off v).dmaFirst = s.dmaFirst := by
  unfold State.writeRegister; split <;> rfl
@[simp] theorem State.writeRegister_sleep (s : State) (off : Nat) (v : Word) : (s.writeRegister off v).sleep = s.sleep := by
  unfold State.writeRegister; split <;> rfl
@[simp] theorem State.writeRegister_mem (s : State) (off : Nat) (v : Word) : (s.writeRegister off v).mem = s.mem := by
  unfold State.writeRegister; split <;> rfl
@[simp] theorem State.writeRegister_inbox (s : State) (off : Nat) (v : Word) : (s.writeRegister off v).inbox = s.inbox := by
  unfold State.writeRegister; split <;> rfl
@[simp] theorem State.writeRegister_waiting (s : State) (off : Nat) (v : Word) : (s.writeRegister off v).waiting = s.waiting := by
  unfold State.writeRegister; split <;> rfl
@[simp] theorem State.writeRegister_busData (s : State) (off : Nat) (v : Word) : (s.writeRegister off v).busData = s.busData := by
  unfold State.writeRegister; split <;> rfl
@[simp] theorem State.writeRegister_lastSent (s : State) (off : Nat) (v : Word) : (s.writeRegister off v).lastSent = s.lastSent := by
  unfold State.writeRegister; split <;> rfl
@[simp] theorem State.writeRegister_draws (s : State) (off : Nat) (v : Word) : (s.writeRegister off v).draws = s.draws := by
  unfold State.writeRegister; split <;> rfl
@[simp] theorem State.writeRegister_races (s : State) (off : Nat) (v : Word) : (s.writeRegister off v).races = s.races := by
  unfold State.writeRegister; split <;> rfl
/-! `stop` -/
@[simp] theorem State.stop_cslot0 (s : State) : (s.stop).cslot0 = s.cslot0 := by
  unfold State.stop; split <;> rfl
@[simp] theorem State.stop_cslot1 (s : State) : (s.stop).cslot1 = s.cslot1 := by
  unfold State.stop; split <;> rfl
@[simp] theorem State.stop_win (s : State) : (s.stop).win = s.win := by
  unfold State.stop; split <;> rfl
@[simp] theorem State.stop_status (s : State) : (s.stop).status = s.status := by
  unfold State.stop; split <;> rfl
@[simp] theorem State.stop_result (s : State) : (s.stop).result = s.result := by
  unfold State.stop; split <;> rfl
@[simp] theorem State.stop_args (s : State) : (s.stop).args = s.args := by
  unfold State.stop; split <;> rfl
@[simp] theorem State.stop_cfg (s : State) : (s.stop).cfg = s.cfg := by
  unfold State.stop; split <;> rfl
@[simp] theorem State.stop_fault (s : State) : (s.stop).fault = s.fault := by
  unfold State.stop; split <;> rfl
@[simp] theorem State.stop_mem (s : State) : (s.stop).mem = s.mem := by
  unfold State.stop; split <;> rfl
@[simp] theorem State.stop_inbox (s : State) : (s.stop).inbox = s.inbox := by
  unfold State.stop; split <;> rfl
@[simp] theorem State.stop_waiting (s : State) : (s.stop).waiting = s.waiting := by
  unfold State.stop; split <;> rfl
@[simp] theorem State.stop_busData (s : State) : (s.stop).busData = s.busData := by
  unfold State.stop; split <;> rfl
@[simp] theorem State.stop_lastSent (s : State) : (s.stop).lastSent = s.lastSent := by
  unfold State.stop; split <;> rfl
@[simp] theorem State.stop_draws (s : State) : (s.stop).draws = s.draws := by
  unfold State.stop; split <;> rfl
@[simp] theorem State.stop_races (s : State) : (s.stop).races = s.races := by
  unfold State.stop; split <;> rfl
/-! `wait` -/
@[simp] theorem State.wait_life (s : State) (w : WaitFor) : (s.wait w).life = s.life := by
  unfold State.wait; split <;> rfl
@[simp] theorem State.wait_mode (s : State) (w : WaitFor) : (s.wait w).mode = s.mode := by
  unfold State.wait; split <;> rfl
@[simp] theorem State.wait_tim (s : State) (w : WaitFor) : (s.wait w).tim = s.tim := by
  unfold State.wait; split <;> rfl
@[simp] theorem State.wait_fb (s : State) (w : WaitFor) : (s.wait w).fb = s.fb := by
  unfold State.wait; split <;> rfl
@[simp] theorem State.wait_line (s : State) (w : WaitFor) : (s.wait w).line = s.line := by
  unfold State.wait; split <;> rfl
@[simp] theorem State.wait_sub (s : State) (w : WaitFor) : (s.wait w).sub = s.sub := by
  unfold State.wait; split <;> rfl
@[simp] theorem State.wait_phase (s : State) (w : WaitFor) : (s.wait w).phase = s.phase := by
  unfold State.wait; split <;> rfl
@[simp] theorem State.wait_frame (s : State) (w : WaitFor) : (s.wait w).frame = s.frame := by
  unfold State.wait; split <;> rfl
@[simp] theorem State.wait_synced (s : State) (w : WaitFor) : (s.wait w).synced = s.synced := by
  unfold State.wait; split <;> rfl
@[simp] theorem State.wait_armed (s : State) (w : WaitFor) : (s.wait w).armed = s.armed := by
  unfold State.wait; split <;> rfl
@[simp] theorem State.wait_ldpend (s : State) (w : WaitFor) : (s.wait w).ldpend = s.ldpend := by
  unfold State.wait; split <;> rfl
@[simp] theorem State.wait_vsync (s : State) (w : WaitFor) : (s.wait w).vsync = s.vsync := by
  unfold State.wait; split <;> rfl
@[simp] theorem State.wait_vpol (s : State) (w : WaitFor) : (s.wait w).vpol = s.vpol := by
  unfold State.wait; split <;> rfl
@[simp] theorem State.wait_cslot0 (s : State) (w : WaitFor) : (s.wait w).cslot0 = s.cslot0 := by
  unfold State.wait; split <;> rfl
@[simp] theorem State.wait_cslot1 (s : State) (w : WaitFor) : (s.wait w).cslot1 = s.cslot1 := by
  unfold State.wait; split <;> rfl
@[simp] theorem State.wait_win (s : State) (w : WaitFor) : (s.wait w).win = s.win := by
  unfold State.wait; split <;> rfl
@[simp] theorem State.wait_result (s : State) (w : WaitFor) : (s.wait w).result = s.result := by
  unfold State.wait; split <;> rfl
@[simp] theorem State.wait_args (s : State) (w : WaitFor) : (s.wait w).args = s.args := by
  unfold State.wait; split <;> rfl
@[simp] theorem State.wait_cfg (s : State) (w : WaitFor) : (s.wait w).cfg = s.cfg := by
  unfold State.wait; split <;> rfl
@[simp] theorem State.wait_fault (s : State) (w : WaitFor) : (s.wait w).fault = s.fault := by
  unfold State.wait; split <;> rfl
@[simp] theorem State.wait_pwm (s : State) (w : WaitFor) : (s.wait w).pwm = s.pwm := by
  unfold State.wait; split <;> rfl
@[simp] theorem State.wait_lt (s : State) (w : WaitFor) : (s.wait w).lt = s.lt := by
  unfold State.wait; split <;> rfl
@[simp] theorem State.wait_dma (s : State) (w : WaitFor) : (s.wait w).dma = s.dma := by
  unfold State.wait; split <;> rfl
@[simp] theorem State.wait_spi (s : State) (w : WaitFor) : (s.wait w).spi = s.spi := by
  unfold State.wait; split <;> rfl
@[simp] theorem State.wait_port (s : State) (w : WaitFor) : (s.wait w).port = s.port := by
  unfold State.wait; split <;> rfl
@[simp] theorem State.wait_gpio (s : State) (w : WaitFor) : (s.wait w).gpio = s.gpio := by
  unfold State.wait; split <;> rfl
@[simp] theorem State.wait_nvic (s : State) (w : WaitFor) : (s.wait w).nvic = s.nvic := by
  unfold State.wait; split <;> rfl
@[simp] theorem State.wait_dmaFirst (s : State) (w : WaitFor) : (s.wait w).dmaFirst = s.dmaFirst := by
  unfold State.wait; split <;> rfl
@[simp] theorem State.wait_sleep (s : State) (w : WaitFor) : (s.wait w).sleep = s.sleep := by
  unfold State.wait; split <;> rfl
@[simp] theorem State.wait_mem (s : State) (w : WaitFor) : (s.wait w).mem = s.mem := by
  unfold State.wait; split <;> rfl
@[simp] theorem State.wait_inbox (s : State) (w : WaitFor) : (s.wait w).inbox = s.inbox := by
  unfold State.wait; split <;> rfl
@[simp] theorem State.wait_busData (s : State) (w : WaitFor) : (s.wait w).busData = s.busData := by
  unfold State.wait; split <;> rfl
@[simp] theorem State.wait_lastSent (s : State) (w : WaitFor) : (s.wait w).lastSent = s.lastSent := by
  unfold State.wait; split <;> rfl
@[simp] theorem State.wait_draws (s : State) (w : WaitFor) : (s.wait w).draws = s.draws := by
  unfold State.wait; split <;> rfl
@[simp] theorem State.wait_races (s : State) (w : WaitFor) : (s.wait w).races = s.races := by
  unfold State.wait; split <;> rfl
/-! `allocateAndStart` -/
@[simp] theorem State.allocateAndStart_win (s : State) (m : Mode) (w h : Nat) (t : Timing) : (s.allocateAndStart m w h t).win = s.win := by
  unfold State.allocateAndStart State.allocate; split <;> rename_i hh <;> split at hh <;> simp at hh <;> (try subst hh) <;> simp
@[simp] theorem State.allocateAndStart_result (s : State) (m : Mode) (w h : Nat) (t : Timing) : (s.allocateAndStart m w h t).result = s.result := by
  unfold State.allocateAndStart State.allocate; split <;> rename_i hh <;> split at hh <;> simp at hh <;> (try subst hh) <;> simp
@[simp] theorem State.allocateAndStart_args (s : State) (m : Mode) (w h : Nat) (t : Timing) : (s.allocateAndStart m w h t).args = s.args := by
  unfold State.allocateAndStart State.allocate; split <;> rename_i hh <;> split at hh <;> simp at hh <;> (try subst hh) <;> simp
@[simp] theorem State.allocateAndStart_cfg (s : State) (m : Mode) (w h : Nat) (t : Timing) : (s.allocateAndStart m w h t).cfg = s.cfg := by
  unfold State.allocateAndStart State.allocate; split <;> rename_i hh <;> split at hh <;> simp at hh <;> (try subst hh) <;> simp
@[simp] theorem State.allocateAndStart_fault (s : State) (m : Mode) (w h : Nat) (t : Timing) : (s.allocateAndStart m w h t).fault = s.fault := by
  unfold State.allocateAndStart State.allocate; split <;> rename_i hh <;> split at hh <;> simp at hh <;> (try subst hh) <;> simp
@[simp] theorem State.allocateAndStart_inbox (s : State) (m : Mode) (w h : Nat) (t : Timing) : (s.allocateAndStart m w h t).inbox = s.inbox := by
  unfold State.allocateAndStart State.allocate; split <;> rename_i hh <;> split at hh <;> simp at hh <;> (try subst hh) <;> simp
@[simp] theorem State.allocateAndStart_waiting (s : State) (m : Mode) (w h : Nat) (t : Timing) : (s.allocateAndStart m w h t).waiting = s.waiting := by
  unfold State.allocateAndStart State.allocate; split <;> rename_i hh <;> split at hh <;> simp at hh <;> (try subst hh) <;> simp
@[simp] theorem State.allocateAndStart_busData (s : State) (m : Mode) (w h : Nat) (t : Timing) : (s.allocateAndStart m w h t).busData = s.busData := by
  unfold State.allocateAndStart State.allocate; split <;> rename_i hh <;> split at hh <;> simp at hh <;> (try subst hh) <;> simp
@[simp] theorem State.allocateAndStart_lastSent (s : State) (m : Mode) (w h : Nat) (t : Timing) : (s.allocateAndStart m w h t).lastSent = s.lastSent := by
  unfold State.allocateAndStart State.allocate; split <;> rename_i hh <;> split at hh <;> simp at hh <;> (try subst hh) <;> simp
@[simp] theorem State.allocateAndStart_races (s : State) (m : Mode) (w h : Nat) (t : Timing) : (s.allocateAndStart m w h t).races = s.races := by
  unfold State.allocateAndStart State.allocate; split <;> rename_i hh <;> split at hh <;> simp at hh <;> (try subst hh) <;> simp
/-! `beginVga` -/
@[simp] theorem State.beginVga_win (s : State) (g : Nat) (m : Mode) (w h : Nat) : (s.beginVga g m w h).win = s.win := by
  unfold State.beginVga; split <;> [rfl; (split <;> [rfl; (split <;> simp)])]
@[simp] theorem State.beginVga_result (s : State) (g : Nat) (m : Mode) (w h : Nat) : (s.beginVga g m w h).result = s.result := by
  unfold State.beginVga; split <;> [rfl; (split <;> [rfl; (split <;> simp)])]
@[simp] theorem State.beginVga_args (s : State) (g : Nat) (m : Mode) (w h : Nat) : (s.beginVga g m w h).args = s.args := by
  unfold State.beginVga; split <;> [rfl; (split <;> [rfl; (split <;> simp)])]
@[simp] theorem State.beginVga_cfg (s : State) (g : Nat) (m : Mode) (w h : Nat) : (s.beginVga g m w h).cfg = s.cfg := by
  unfold State.beginVga; split <;> [rfl; (split <;> [rfl; (split <;> simp)])]
@[simp] theorem State.beginVga_fault (s : State) (g : Nat) (m : Mode) (w h : Nat) : (s.beginVga g m w h).fault = s.fault := by
  unfold State.beginVga; split <;> [rfl; (split <;> [rfl; (split <;> simp)])]
@[simp] theorem State.beginVga_inbox (s : State) (g : Nat) (m : Mode) (w h : Nat) : (s.beginVga g m w h).inbox = s.inbox := by
  unfold State.beginVga; split <;> [rfl; (split <;> [rfl; (split <;> simp)])]
@[simp] theorem State.beginVga_waiting (s : State) (g : Nat) (m : Mode) (w h : Nat) : (s.beginVga g m w h).waiting = s.waiting := by
  unfold State.beginVga; split <;> [rfl; (split <;> [rfl; (split <;> simp)])]
@[simp] theorem State.beginVga_busData (s : State) (g : Nat) (m : Mode) (w h : Nat) : (s.beginVga g m w h).busData = s.busData := by
  unfold State.beginVga; split <;> [rfl; (split <;> [rfl; (split <;> simp)])]
@[simp] theorem State.beginVga_lastSent (s : State) (g : Nat) (m : Mode) (w h : Nat) : (s.beginVga g m w h).lastSent = s.lastSent := by
  unfold State.beginVga; split <;> [rfl; (split <;> [rfl; (split <;> simp)])]
@[simp] theorem State.beginVga_races (s : State) (g : Nat) (m : Mode) (w h : Nat) : (s.beginVga g m w h).races = s.races := by
  unfold State.beginVga; split <;> [rfl; (split <;> [rfl; (split <;> simp)])]
/-! `beginWith` -/
@[simp] theorem State.beginWith_win (s : State) (g sel : Nat) : (s.beginWith g sel).win = s.win := by
  unfold State.beginWith; split <;> simp
@[simp] theorem State.beginWith_result (s : State) (g sel : Nat) : (s.beginWith g sel).result = s.result := by
  unfold State.beginWith; split <;> simp
@[simp] theorem State.beginWith_args (s : State) (g sel : Nat) : (s.beginWith g sel).args = s.args := by
  unfold State.beginWith; split <;> simp
@[simp] theorem State.beginWith_cfg (s : State) (g sel : Nat) : (s.beginWith g sel).cfg = s.cfg := by
  unfold State.beginWith; split <;> simp
@[simp] theorem State.beginWith_fault (s : State) (g sel : Nat) : (s.beginWith g sel).fault = s.fault := by
  unfold State.beginWith; split <;> simp
@[simp] theorem State.beginWith_inbox (s : State) (g sel : Nat) : (s.beginWith g sel).inbox = s.inbox := by
  unfold State.beginWith; split <;> simp
@[simp] theorem State.beginWith_waiting (s : State) (g sel : Nat) : (s.beginWith g sel).waiting = s.waiting := by
  unfold State.beginWith; split <;> simp
@[simp] theorem State.beginWith_busData (s : State) (g sel : Nat) : (s.beginWith g sel).busData = s.busData := by
  unfold State.beginWith; split <;> simp
@[simp] theorem State.beginWith_lastSent (s : State) (g sel : Nat) : (s.beginWith g sel).lastSent = s.lastSent := by
  unfold State.beginWith; split <;> simp
@[simp] theorem State.beginWith_races (s : State) (g sel : Nat) : (s.beginWith g sel).races = s.races := by
  unfold State.beginWith; split <;> simp

end Sys2Proof.Machine
end

