-- ==== Sys2Proof/Laws/Memory.lean ====
section
/-! SUPPORT. Host memory: every operation keeps the canonical form; a read after a write, a clear or a store gives what
was written, and every other byte stays. -/

namespace Sys2Proof.Machine

/-! ### One byte. -/

theorem Memory.read_of_lt {m : Memory} {a : Nat} (h : ∀ c ∈ m, a < c.1) : m.read a = 0 := by
  induction m with
  | nil => rfl
  | cons c m ih =>
    obtain ⟨a', b'⟩ := c
    have h1 : a < a' := h (a', b') (by simp)
    have h2 : a ≠ a' := by omega
    simp only [Memory.read, h2, if_false]
    exact ih fun c hc => h c (by simp [hc])

theorem Memory.mem_write {m : Memory} {a : Nat} {b : Byte} {c : Host.Cell} (h : c ∈ m.write a b) :
    c ∈ m ∨ c = (a, b) ∧ b ≠ 0 := by
  induction m with
  | nil =>
    simp only [Memory.write] at h
    split at h <;> simp_all
  | cons d m ih =>
    obtain ⟨a', b'⟩ := d
    simp only [Memory.write] at h
    split at h
    · split at h <;> simp_all; tauto
    · split at h
      · split at h <;> simp_all; tauto
      · simp only [List.mem_cons] at h ⊢
        rcases h with h | h
        · exact .inl (.inl h)
        · rcases ih h with h | h
          · exact .inl (.inr h)
          · exact .inr h

theorem Memory.write_wf {m : Memory} (h : m.wf) {a : Nat} (ha : a < 2 ^ 32) (b : Byte) : (m.write a b).wf := by
  refine ⟨?_, ?_⟩
  · obtain ⟨h, -⟩ := h
    induction m with
    | nil => simp only [Memory.write]; split <;> simp
    | cons d m ih =>
      obtain ⟨a', b'⟩ := d
      rw [List.pairwise_cons] at h
      simp only [Memory.write]
      split
      · split
        · exact List.pairwise_cons.2 h
        · refine List.pairwise_cons.2 ⟨fun c hc => ?_, List.pairwise_cons.2 h⟩
          rcases List.mem_cons.1 hc with rfl | hc
          · assumption
          · have := h.1 c hc; simp only at *; omega
      · split
        · split
          · exact h.2
          · refine List.pairwise_cons.2 ⟨fun c hc => ?_, h.2⟩
            have := h.1 c hc; simp only at *; omega
        · refine List.pairwise_cons.2 ⟨fun c hc => ?_, ih h.2⟩
          rcases Memory.mem_write hc with hc | ⟨rfl, -⟩
          · exact h.1 c hc
          · simp only; omega
  · intro c hc
    rcases Memory.mem_write hc with hc | ⟨rfl, hb⟩
    · exact h.2 c hc
    · exact ⟨ha, hb⟩

theorem Memory.read_write {m : Memory} (h : m.wf) (a : Nat) (b : Byte) (x : Nat) :
    (m.write a b).read x = if x = a then b else m.read x := by
  obtain ⟨h, -⟩ := h
  induction m with
  | nil => simp only [Memory.write]; split <;> simp_all [Memory.read]
  | cons d m ih =>
    obtain ⟨a', b'⟩ := d
    rw [List.pairwise_cons] at h
    have hlow : ∀ y, y ≤ a' → Memory.read m y = 0 := fun y hy =>
      Memory.read_of_lt fun c hc => by have := h.1 c hc; simp only at this; omega
    simp only [Memory.write]
    split
    · split
      · by_cases hx : x = a
        · subst hx
          have : x ≠ a' := by omega
          simp_all [Memory.read]
          exact hlow x (by omega)
        · simp [hx]
      · simp [Memory.read]
    · split
      · rename_i haa
        subst haa
        split
        · by_cases hx : x = a
          · subst hx; simp_all
          · simp [Memory.read, hx]
        · by_cases hx : x = a <;> simp [Memory.read, hx]
      · by_cases hx : x = a'
        · subst hx
          have : x ≠ a := by omega
          simp [Memory.read, this]
        · simp [Memory.read, hx, ih h.2]

theorem Memory.clear_wf {m : Memory} (h : m.wf) (base size : Nat) : (m.clear base size).wf :=
  ⟨h.1.filter _, fun c hc => h.2 c (List.mem_filter.1 hc).1⟩

theorem Memory.read_clear (m : Memory) (base size x : Nat) :
    (m.clear base size).read x = if base ≤ x ∧ x < base + size then 0 else m.read x := by
  induction m with
  | nil => simp [Memory.clear, Memory.read]
  | cons d m ih =>
    obtain ⟨a', b'⟩ := d
    by_cases hin : base ≤ a' ∧ a' < base + size
    · have : Memory.clear ((a', b') :: m) base size = Memory.clear m base size := by
        simp only [Memory.clear, List.filter_cons]
        simp [hin.1, hin.2]
      rw [this, ih]
      by_cases hx : x = a'
      · subst hx; simp [hin]
      · simp [Memory.read, hx]
    · have : Memory.clear ((a', b') :: m) base size = (a', b') :: Memory.clear m base size := by
        have hb : (!(decide (base ≤ a') && decide (a' < base + size))) = true := by
          simp only [Bool.not_eq_true', Bool.and_eq_false_imp, decide_eq_true_eq, decide_eq_false_iff_not]
          intro h1 h2
          exact hin ⟨h1, h2⟩
        rw [Memory.clear, List.filter_cons, if_pos hb]
        rfl
      rw [this]
      by_cases hx : x = a'
      · subst hx; simp [Memory.read, hin]
      · simp [Memory.read, hx, ih]

/-- Equal reads, equal data: the canonical form is one form. -/
theorem Memory.ext_read {m m' : Memory} (h : m.wf) (h' : m'.wf) (he : ∀ a, m.read a = m'.read a) : m = m' := by
  induction m generalizing m' with
  | nil =>
    cases m' with
    | nil => rfl
    | cons d m' =>
      have := he d.1
      simp only [Memory.read, if_true] at this
      exact absurd this.symm (h'.2 d (by simp)).2
  | cons c m ih =>
    cases m' with
    | nil =>
      have := he c.1
      simp only [Memory.read, if_true] at this
      exact absurd this (h.2 c (by simp)).2
    | cons d m' =>
      obtain ⟨a, b⟩ := c
      obtain ⟨a', b'⟩ := d
      have hp := List.pairwise_cons.1 h.1
      have hp' := List.pairwise_cons.1 h'.1
      have hb := (h.2 (a, b) (by simp)).2
      have hb' := (h'.2 (a', b') (by simp)).2
      have low : ∀ y, y ≤ a → Memory.read m y = 0 := fun y hy =>
        Memory.read_of_lt fun c hc => by have := hp.1 c hc; simp only at this; omega
      have low' : ∀ y, y ≤ a' → Memory.read m' y = 0 := fun y hy =>
        Memory.read_of_lt fun c hc => by have := hp'.1 c hc; simp only at this; omega
      have haa : a = a' := by
        rcases Nat.lt_trichotomy a a' with hlt | heq | hgt
        · have := he a
          simp [Memory.read, Nat.ne_of_lt hlt, low' a (by omega)] at this
          exact absurd this hb
        · exact heq
        · have := he a'
          simp [Memory.read, Nat.ne_of_lt hgt, low a' (by omega)] at this
          exact absurd this.symm hb'
      subst haa
      have hbb : b = b' := by have := he a; simpa [Memory.read] using this
      subst hbb
      congr 1
      refine ih ⟨hp.2, fun c hc => h.2 c (by simp [hc])⟩ ⟨hp'.2, fun c hc => h'.2 c (by simp [hc])⟩ fun x => ?_
      by_cases hx : x = a
      · subst hx; rw [low x (by omega), low' x (by omega)]
      · have := he x; simpa [Memory.read, hx] using this

/-! ### Several bytes (20_memory.md R44). -/

theorem Memory.store_wf {m : Memory} (h : m.wf) (a : Addr) (n v : Nat) : (m.store a n v).wf := by
  induction n generalizing m a v with
  | zero => exact h
  | succ n ih => exact ih (Memory.write_wf h a.isLt _) _ _

theorem addr_sub_succ {a x : Addr} (h : x ≠ a) : (x - a).toNat = (x - (a + 1)).toNat + 1 := by
  have h1 : (x - a).toNat ≠ 0 := by
    intro hc
    apply h
    bv_omega
  bv_omega

/-- What a store does to each byte: the bytes from `a` on hold `v`, little-endian, and every other byte stays. -/
theorem Memory.read_store {m : Memory} (h : m.wf) (a : Addr) (n v : Nat) (hn : n < 2 ^ 32) (x : Addr) :
    (m.store a n v).read x.toNat =
      if (x - a).toNat < n then byteOfNat v (x - a).toNat else m.read x.toNat := by
  induction n generalizing m a v with
  | zero => simp [Memory.store]
  | succ n ih =>
    rw [Memory.store, ih (Memory.write_wf h a.isLt _) _ _ (by omega), Memory.read_write h]
    by_cases hx : x = a
    · subst hx
      have h0 : ¬ (x - (x + 1)).toNat < n := by bv_omega
      rw [if_neg h0, if_pos rfl, BitVec.sub_self, BitVec.toNat_zero, if_pos (Nat.succ_pos n)]
      simp [byteOfNat]
    · have hs := addr_sub_succ hx
      have hxa : x.toNat ≠ a.toNat := fun hc => hx (BitVec.eq_of_toNat_eq hc)
      rw [hs, if_neg hxa]
      have hc : byteOfNat (v / 256) (x - (a + 1)).toNat = byteOfNat v ((x - (a + 1)).toNat + 1) := by
        simp [byteOfNat, Nat.pow_succ, Nat.div_div_eq_div_mul, Nat.mul_comm]
      rw [hc]
      simp only [Nat.add_lt_add_iff_right]

/-- A load depends only on the bytes it reads. -/
theorem Memory.load_congr {m m' : Memory} (a : Addr) (n : Nat) (hn : n < 2 ^ 32)
    (h : ∀ x : Addr, (x - a).toNat < n → m.read x.toNat = m'.read x.toNat) : m.load a n = m'.load a n := by
  induction n generalizing a with
  | zero => rfl
  | succ n ih =>
    rw [Memory.load, Memory.load, h a (by simp), ih (a + 1) (by omega)]
    intro x hx
    by_cases hxa : x = a
    · subst hxa; exact h x (by simp)
    · exact h x (by rw [addr_sub_succ hxa]; omega)

/-- `MemRead` after `MemWrite` at the same place gives the value written (R44). -/
theorem Memory.load_store {m : Memory} (h : m.wf) (a : Addr) (n v : Nat) (hn : n < 2 ^ 32) :
    (m.store a n v).load a n = v % 256 ^ n := by
  induction n generalizing m a v with
  | zero => simp [Memory.load, Nat.mod_one]
  | succ n ih =>
    have hr := Memory.read_store h a (n + 1) v hn a
    simp only [BitVec.sub_self, BitVec.toNat_zero, Nat.zero_lt_succ, if_true] at hr
    rw [Memory.load, hr, Memory.store, ih (Memory.write_wf h a.isLt _) (a + 1) (v / 256) (by omega)]
    simp only [byteOfNat, Nat.pow_zero, Nat.div_one, BitVec.toNat_ofNat]
    rw [Nat.pow_succ 256 n, Nat.mul_comm (256 ^ n) 256, Nat.mod_mul]

/-! ### The state's memory. -/

@[simp] theorem State.store_mem (s : State) (a : Addr) (n v : Nat) : (s.store a n v).mem = s.mem.store a n v := by
  simp [State.store]

/-- What a store of the state does to each byte. -/
theorem State.byteAt_store {s : State} (h : s.mem.wf) (a : Addr) (n v : Nat) (hn : n < 2 ^ 32) (x : Addr) :
    (s.store a n v).byteAt x = if (x - a).toNat < n then byteOfNat v (x - a).toNat else s.byteAt x := by
  simp only [State.byteAt, State.store_mem]
  exact Memory.read_store h a n v hn x

/-- A store outside a transfer from memory changes memory alone. -/
theorem State.store_of_idle {s : State} (h : s.readsMemory = false) (a : Addr) (n v : Nat) :
    s.store a n v = { s with mem := s.mem.store a n v } := by
  have : State.readsMemory { s with mem := s.mem.store a n v } = false := h
  simp [State.store, State.race, this]

end Sys2Proof.Machine
end

