-- ==== Sys2Proof/Laws/Step.lean ====
section
/-! SUPPORT. What one step can do, said once; and the packaged argument that a step keeps an invariant. -/

namespace Sys2Proof.Machine

/-! ### The decoder. -/

theorem decode_eventWord (q : Source) : decode (eventWord q) = .ok (handlerOf q) := by cases q <;> rfl

theorem decodeCmd_ok {c : Word} {i : Instr} (h : decodeCmd c = .ok i) : decode c = .ok i ∧ i.hostIssuable = true := by
  unfold decodeCmd at h
  split at h
  · split at h
    · cases h; exact ⟨by assumption, by assumption⟩
    · cases h
  · cases h

/-! ### Every operation answers a next state. -/

theorem exec_next (i : Instr) (s : State) : ∃ t, exec i s = .next t := by
  cases i <;> simp only [exec, execBegin, execBeginComposite, execEnd, execSetMonitorRange, execSetPixel, execGetPixel,
    execWaitVblank, execWaitActive, execEvLt, execEvHc, execEvDmac]
  case setPixel => split <;> exact ⟨_, rfl⟩
  case getPixel => split <;> exact ⟨_, rfl⟩
  all_goals exact ⟨_, rfl⟩

/-! ### The host's accesses. -/

/-- What an access of the host can do, if it answers a next state. -/
inductive AccessEffect (s : State) : State → Prop where
  | readWindow (off : BitVec 8) (w : Width) : AccessEffect s (s.readWindow off w)
  | command {i : Instr} {t : State} (c : Word) (hd : decodeCmd c = .ok i) (h : exec i s = .next t) : AccessEffect s t
  | illegal : AccessEffect s (s.setStatus statusIllegal)
  | writeRegister (off : Nat) (v : Word) : AccessEffect s (s.writeRegister off v)
  | badShape : AccessEffect s (s.raiseFault .bus)
  | readMemory (a : Addr) (w : Width) : AccessEffect s (s.readMemory a w)
  | readAlias (a : Addr) : AccessEffect s (s.readAlias a)
  | writeMemory (a : Addr) (w : Width) (v : Word) : AccessEffect s (s.writeMemory a w v)
  | writeAlias (a : Addr) (v : Word) : AccessEffect s (s.writeAlias a v)

theorem issueCommand_effect {c : Word} {s t : State} (h : issueCommand c s = .next t) : AccessEffect s t := by
  unfold issueCommand at h
  split at h
  · exact .command c (by assumption) h
  · cases h; exact .illegal

theorem hostWriteWindow_effect {off : BitVec 8} {w : Width} {v : Word} {s t : State}
    (h : hostWriteWindow off w v s = .next t) : AccessEffect s t := by
  unfold hostWriteWindow at h
  split at h
  · split at h
    · exact issueCommand_effect h
    · cases h; exact .writeRegister _ _
  · cases h; exact .badShape

theorem busReadMemory_effect {a : Addr} {w : Width} {s t : State} (h : s.busReadMemory a w = .next t) :
    AccessEffect s t := by
  unfold State.busReadMemory at h
  split at h
  · split at h <;> cases h
    exact .readAlias a
  · split at h
    · split at h <;> cases h
      exact .readMemory a w
    · cases h

theorem busWriteMemory_effect {a : Addr} {w : Width} {v : Word} {s t : State}
    (h : s.busWriteMemory a w v = .next t) : AccessEffect s t := by
  unfold State.busWriteMemory at h
  split at h
  · split at h <;> cases h
    exact .writeAlias a v
  · split at h
    · split at h <;> cases h
      exact .writeMemory a w v
    · cases h

theorem hostAccess_effect {a : HostAccess} {s t : State} (h : hostAccess a s = .next t) : AccessEffect s t := by
  cases a with
  | regRead off w => simp only [hostAccess] at h; cases h; exact .readWindow off w
  | regWrite off w v => exact hostWriteWindow_effect h
  | busRead addr w =>
    simp only [hostAccess] at h
    split at h
    · cases h; exact .readWindow _ w
    · exact busReadMemory_effect h
  | busWrite addr w v =>
    simp only [hostAccess] at h
    split at h
    · exact hostWriteWindow_effect h
    · exact busWriteMemory_effect h

/-! ### One step. -/

/-- The event service runs the handler between its entry and its return. -/
theorem serveEvent_eq (q : Source) (s : State) :
    serveEvent q s = afterHandler (exec (handlerOf q) (s.enterHandler q)) := by
  simp only [serveEvent, decode_eventWord]

/-- What a step can do, if it answers a next state. -/
inductive StepEffect (s : State) : State → Prop where
  | handler (q : Source) (hq : s.nextEvent = some q) {t : State}
      (h : exec (handlerOf q) (s.enterHandler q) = .next t) : StepEffect s t.leaveHandler
  | tick (hq : s.nextEvent = none) : StepEffect s s.tick
  | idle (hq : s.nextEvent = none) (hf : s.hostFree = true) (rest : List HostMove) (hi : s.inbox = .idle :: rest) :
      StepEffect s (State.tick { s with inbox := rest })
  | access (hq : s.nextEvent = none) (hf : s.hostFree = true) (a : HostAccess) (rest : List HostMove)
      (hi : s.inbox = .access a :: rest) {t : State} (h : hostAccess a { s with inbox := rest } = .next t)
      (he : AccessEffect { s with inbox := rest } t) : StepEffect s t

theorem step_effect {s t : State} (h : step s = .next t) : StepEffect s t := by
  unfold step at h
  split at h
  · rename_i q hq
    rw [serveEvent_eq] at h
    obtain ⟨u, hu⟩ := exec_next (handlerOf q) (s.enterHandler q)
    rw [hu] at h
    cases h
    exact .handler q hq hu
  · rename_i hq
    unfold foreground at h
    split at h
    · rename_i hf
      split at h
      · cases h; exact .tick hq
      · cases h; exact .idle hq hf _ (by assumption)
      · exact .access hq hf _ _ (by assumption) h (hostAccess_effect h)
    · cases h; exact .tick hq

/-- A step keeps an invariant that no part of it breaks. -/
theorem step_keeps {Inv : State → Prop}
    (pop : ∀ (s : State) (rest : List HostMove), Inv s → Inv { s with inbox := rest })
    (enter : ∀ (s : State) (q : Source), s.nextEvent = some q → Inv s → Inv (s.enterHandler q))
    (run : ∀ (i : Instr) (s t : State), Inv s → exec i s = .next t → Inv t)
    (leave : ∀ s : State, Inv s → Inv s.leaveHandler)
    (tick : ∀ s : State, Inv s → Inv s.tick)
    (access : ∀ s t : State, Inv s → AccessEffect s t → (∀ i : Instr, exec i s ≠ .next t) → Inv t)
    {s t : State} (hs : Inv s) (h : step s = .next t) : Inv t := by
  cases step_effect h with
  | handler q hq hu => exact leave _ (run _ _ _ (enter _ _ hq hs) hu)
  | tick hq => exact tick _ hs
  | idle hq hf rest hi => exact tick _ (pop _ _ hs)
  | access hq hf a rest hi ha he =>
    by_cases hex : ∃ i, exec i { s with inbox := rest } = .next t
    · obtain ⟨i, hi⟩ := hex
      exact run _ _ _ (pop _ _ hs) hi
    · exact access _ _ (pop _ _ hs) he fun i hi => hex ⟨i, hi⟩

end Sys2Proof.Machine
end

