-- ==== Sys2Proof/Laws/Encoder.lean ====
section
/-! SUPPORT. The composite encoder: what an overlay, the row walk, the phase and one line's fill leave in a slot. -/

namespace Sys2Proof.Machine

@[simp] theorem overlay_length (slot : List Byte) (i : Nat) (vals : List Byte) :
    (overlay slot i vals).length = slot.length := by
  induction slot generalizing i vals with
  | nil => simp [overlay]
  | cons b slot ih =>
    cases vals with
    | nil => simp [overlay]
    | cons v vals => cases i <;> simp [overlay, ih]

/-- The bytes of an overlaid slot: `vals` from index `i` on, the old bytes elsewhere. -/
theorem overlay_getElem? (slot : List Byte) (i : Nat) (vals : List Byte) (k : Nat) (hk : k < slot.length) :
    (overlay slot i vals)[k]? = if i ≤ k ∧ k < i + vals.length then vals[k - i]? else slot[k]? := by
  induction slot generalizing i vals k with
  | nil => simp at hk
  | cons b slot ih =>
    cases vals with
    | nil => simp [overlay]
    | cons v vals =>
      cases i with
      | zero =>
        cases k with
        | zero => simp [overlay]
        | succ k => simp [overlay]; rw [ih 0 vals k (by simpa using hk)]; simp
      | succ i =>
        cases k with
        | zero => simp [overlay]
        | succ k =>
          simp only [overlay, List.getElem?_cons_succ]
          rw [ih i (v :: vals) k (by simpa using hk)]
          simp only [List.length_cons, Nat.add_sub_add_right]
          split_ifs <;> first | rfl | omega

/-- The next row stays below the cycle, and is the sum modulo the cycle (44_composite.md R139). -/
theorem nextRow_eq (p : CompositeParams) (h : p.pstride ≤ p.cycle) {row : Nat} (hr : row < p.cycle) :
    nextRow p row < p.cycle ∧ nextRow p row = (row + p.pstride) % p.cycle := by
  unfold nextRow
  split
  · rename_i hge
    refine ⟨by omega, ?_⟩
    rw [Nat.mod_eq_sub_mod hge, Nat.mod_eq_of_lt (by omega)]
  · rw [Nat.mod_eq_of_lt (by omega)]
    omega

theorem addr_add_succ (a : Addr) (k : Nat) : a + 1 + BitVec.ofNat 32 k = a + BitVec.ofNat 32 (k + 1) := by
  rw [BitVec.add_assoc]
  congr 1
  apply BitVec.eq_of_toNat_eq
  simp [Nat.add_comm]

@[simp] theorem encodePixels_length (p : CompositeParams) (m : Memory) (a : Addr) (row n : Nat) :
    (encodePixels p m a row n).length = n := by
  induction n generalizing a row with
  | zero => rfl
  | succ n ih => simp [encodePixels, ih]

/-- One sample of an encoded line is the table's entry for the pixel at the row that the walk has reached. -/
theorem encodePixels_getElem? (p : CompositeParams) (m : Memory) (a : Addr) (row n x : Nat) (hx : x < n) :
    (encodePixels p m a row n)[x]? = some (p.pt (m.read (a + BitVec.ofNat 32 x).toNat) ((nextRow p)^[x] row)) := by
  induction n generalizing row x a with
  | zero => omega
  | succ n ih =>
    cases x with
    | zero => simp [encodePixels]
    | succ x =>
      simp only [encodePixels, List.getElem?_cons_succ]
      rw [ih _ _ x (by omega), addr_add_succ]
      rfl

theorem bandBody_length_le (p : CompositeParams) (n : Nat) : (bandBody p n).length ≤ 320 := by
  unfold bandBody
  split <;> simp

theorem lineBody_length_le (p : CompositeParams) (m : Memory) (b : Addr) (phase n : Nat) :
    (lineBody p m b phase n).length ≤ 320 := by
  unfold lineBody
  split
  · simp [encodeActive]
  · exact bandBody_length_le p n

@[simp] theorem fillSlot_length (p : CompositeParams) (m : Memory) (b : Addr) (phase n : Nat) (slot : List Byte) :
    (fillSlot p m b phase n slot).length = slot.length := by
  simp [fillSlot]

/-- A filled slot: the preamble, the body of the line, and elsewhere the old bytes. -/
theorem fillSlot_getElem? (p : CompositeParams) (m : Memory) (b : Addr) (phase n : Nat) (slot : List Byte) (i : Nat)
    (hi : i < slot.length) :
    (fillSlot p m b phase n slot)[i]? =
      if p.preLen ≤ i ∧ i < p.preLen + (lineBody p m b phase n).length
      then (lineBody p m b phase n)[i - p.preLen]?
      else if i < p.preLen then some (p.template (if p.nvar = 2 then n % 2 else 0) (phase + i)) else slot[i]? := by
  rw [fillSlot, overlay_getElem? _ _ _ _ (by simpa using hi), overlay_getElem? _ _ _ _ hi]
  congr 1
  simp only [preamble, List.length_map, List.length_range, Nat.zero_le, true_and, Nat.zero_add]
  by_cases h : i < p.preLen
  · simp only [if_pos h]; simp [h]
  · simp only [if_neg h]

/-- Line `n` fills the slot of its parity and leaves the other one. -/
theorem State.fillLine_slot (s : State) (p : CompositeParams) (n : Nat) :
    (s.fillLine p n).slot (n % 2) = fillSlot p s.mem s.fb.base s.phase.toNat n (s.slot (n % 2)) ∧
      (s.fillLine p n).slot ((n + 1) % 2) = s.slot ((n + 1) % 2) := by
  unfold State.fillLine State.slot
  rcases Nat.mod_two_eq_zero_or_one n with h | h
  · have : (n + 1) % 2 = 1 := by omega
    simp [h, this]
  · have : (n + 1) % 2 = 0 := by omega
    simp [h, this]

end Sys2Proof.Machine
end

