-- ==== Sys2Proof/Laws/Ops.lean ====
section
/-! SUPPORT. One lemma for each shared operation that says what it does: events, a tick, the race of a transfer, guard
words, single bits, and the place of a buffer. -/

namespace Sys2Proof.Machine

/-! ### Events (60_exceptions.md R171). -/

/-- Setting a pending bit touches no enable, no level and not the global enable. -/
theorem Nvic.setPend_keeps (n : Nvic) (q : Source) (b : Bool) : (n.setPend q b).global = n.global ∧
    ∀ q', ((n.setPend q b).line q').en = (n.line q').en ∧ ((n.setPend q b).line q').prio = (n.line q').prio := by
  refine ⟨by cases q <;> rfl, fun q' => ?_⟩
  cases q <;> cases q' <;> exact ⟨rfl, rfl⟩

theorem State.raiseEvent_keeps (s : State) (q : Source) : (s.raiseEvent q).nvic.global = s.nvic.global ∧
    ∀ q', ((s.raiseEvent q).nvic.line q').en = (s.nvic.line q').en ∧
      ((s.raiseEvent q).nvic.line q').prio = (s.nvic.line q').prio := by
  unfold State.raiseEvent
  split
  · dsimp only; split <;> exact Nvic.setPend_keeps _ _ _
  · exact ⟨rfl, fun q => ⟨rfl, rfl⟩⟩

theorem State.raiseIf_keeps (s : State) (b : Bool) (q : Source) : (s.raiseIf b q).nvic.global = s.nvic.global ∧
    ∀ q', ((s.raiseIf b q).nvic.line q').en = (s.nvic.line q').en ∧
      ((s.raiseIf b q).nvic.line q').prio = (s.nvic.line q').prio := by
  unfold State.raiseIf
  split
  · exact State.raiseEvent_keeps _ _
  · exact ⟨rfl, fun q => ⟨rfl, rfl⟩⟩

/-- After an event the source is pending if it was, or if it is enabled; every other source is as before. -/
theorem State.raiseEvent_pend (s : State) (q q' : Source) : ((s.raiseEvent q).nvic.line q').pend =
    ((s.nvic.line q').pend || (decide (q' = q) && (s.nvic.line q).en)) := by
  unfold State.raiseEvent
  split
  · rename_i h
    have : ∀ n : Nvic, ((n.setPend q true).line q').pend = ((n.line q').pend || decide (q' = q)) := by
      intro n; cases q <;> cases q' <;> simp [Nvic.setPend, Nvic.line]
    dsimp only
    split <;> simp [this, h]
  · rename_i h; simp [h]

theorem State.raiseIf_pend (s : State) (b : Bool) (q q' : Source) : ((s.raiseIf b q).nvic.line q').pend =
    ((s.nvic.line q').pend || (b && decide (q' = q) && (s.nvic.line q).en)) := by
  unfold State.raiseIf
  split
  · rename_i h; rw [State.raiseEvent_pend]; simp [h]
  · rename_i h; simp [h]

/-! ### One tick (43_scanline_vga.md R108). -/

theorem State.tick_pwm (s : State) : s.tick.pwm = s.tickPwm.pwm := by simp [State.tick]

theorem State.tick_lt (s : State) : s.tick.lt = s.tickLt.lt := by
  simp only [State.tick, State.raiseIf_lt, State.tickDma_lt]
  unfold State.tickLt
  simp only [State.tickPwm_lt]
  split
  · rfl
  · exact State.tickPwm_lt s

theorem State.tick_dma (s : State) : s.tick.dma = s.tickDma.dma := by
  simp only [State.tick, State.raiseIf_dma]
  have hc : s.tickPwm.tickLt.completes = s.completes := by
    unfold State.completes State.transferTime State.unitTime
    simp
  unfold State.tickDma
  rw [hc]
  have hb : s.tickPwm.tickLt.dma = s.dma := by simp
  split
  · simp [State.ageFlight, State.dmaComplete]
  · rw [hb]; split
    · simp [State.ageFlight]
    · exact hb

theorem State.tick_keeps (s : State) : s.tick.nvic.global = s.nvic.global ∧
    ∀ q, (s.tick.nvic.line q).en = (s.nvic.line q).en ∧ (s.tick.nvic.line q).prio = (s.nvic.line q).prio := by
  have a := State.raiseIf_keeps (s.tickPwm.tickLt.tickDma) s.raisesHc .hc
  have b := State.raiseIf_keeps (s.tickPwm.tickLt.tickDma.raiseIf s.raisesHc .hc) s.raisesLt .lt
  have c := State.raiseIf_keeps ((s.tickPwm.tickLt.tickDma.raiseIf s.raisesHc .hc).raiseIf s.raisesLt .lt) s.raisesDma .dma
  have d : s.tickPwm.tickLt.tickDma.nvic = s.nvic := by simp
  rw [d] at a
  unfold State.tick
  exact ⟨by rw [c.1, b.1, a.1], fun q => ⟨by rw [(c.2 q).1, (b.2 q).1, (a.2 q).1], by rw [(c.2 q).2, (b.2 q).2, (a.2 q).2]⟩⟩

/-- After a tick a source is pending if it was, or if its unit raised it in this tick and it is enabled. -/
theorem State.tick_pend (s : State) (q : Source) : (s.tick.nvic.line q).pend = ((s.nvic.line q).pend ||
    ((match q with | .lt => s.raisesLt | .hc => s.raisesHc | .dma => s.raisesDma) && (s.nvic.line q).en)) := by
  unfold State.tick
  rw [State.raiseIf_pend, State.raiseIf_pend, State.raiseIf_pend, ((State.raiseIf_keeps _ _ _).2 _).1,
    ((State.raiseIf_keeps _ _ _).2 _).1, ((State.raiseIf_keeps _ _ _).2 _).1]
  simp only [State.tickDma_nvic, State.tickLt_nvic, State.tickPwm_nvic]
  cases q <;> simp

/-- Recording an event that was raised changes the controller, the sleep flag and FAULT, and these as R171 says
(60_exceptions.md). -/
theorem State.raiseIf_eq (s : State) (b : Bool) (q : Source) : s.raiseIf b q = { s with
    nvic := (s.raiseIf b q).nvic
    sleep := s.sleep && !(b && (s.nvic.line q).en)
    fault := if b && (s.nvic.line q).en && (s.nvic.line q).pend then s.fault ||| 0b000100#6 else s.fault } := by
  unfold State.raiseIf State.raiseEvent
  cases b <;> simp <;> split <;> simp_all
  split <;> simp_all [State.raiseFault, FaultBit.index]

/-- A tick changes the timers, the DMA channel, the controller, the sleep flag, FAULT and the record of the last
transfer, and nothing else. -/
theorem State.tick_changes (s : State) : s.tick = { s with
    pwm := s.tick.pwm, lt := s.tick.lt, dma := s.tick.dma, nvic := s.tick.nvic
    sleep := s.tick.sleep, fault := s.tick.fault, lastSent := s.tick.lastSent } := by
  have pre : s.tickPwm.tickLt.tickDma = { s with
      pwm := s.tickPwm.tickLt.tickDma.pwm, lt := s.tickPwm.tickLt.tickDma.lt, dma := s.tickPwm.tickLt.tickDma.dma
      lastSent := s.tickPwm.tickLt.tickDma.lastSent } := by
    unfold State.tickDma State.tickLt State.tickPwm State.ageFlight State.dmaComplete
    split <;> (try split) <;> (try split) <;> (try split) <;> rfl
  unfold State.tick
  rw [State.raiseIf_eq, State.raiseIf_eq, State.raiseIf_eq]
  generalize s.tickPwm.tickLt.tickDma = u at *
  rw [pre]

/-- A tick ends the sleep exactly if it raises the event of an enabled source (60_exceptions.md R171). -/
theorem State.tick_sleep (s : State) : s.tick.sleep = (s.sleep && !(s.raisesHc && s.nvic.hc.en) &&
    !(s.raisesLt && s.nvic.lt.en) && !(s.raisesDma && s.nvic.dma.en)) := by
  have sleep : ∀ (s : State) b q, (s.raiseIf b q).sleep = (s.sleep && !(b && (s.nvic.line q).en)) := fun s b q => by
    rw [State.raiseIf_eq]
  have en : ∀ (s : State) b q q', ((s.raiseIf b q).nvic.line q').en = (s.nvic.line q').en := fun s b q q' =>
    ((State.raiseIf_keeps s b q).2 q').1
  unfold State.tick
  simp only [sleep, en, State.tickDma_sleep, State.tickLt_sleep, State.tickPwm_sleep, State.tickDma_nvic,
    State.tickLt_nvic, State.tickPwm_nvic]
  rfl

/-- A tick raises OVERRUN exactly if it raises the event of a source that is enabled and pending
(60_exceptions.md R171). -/
theorem State.tick_fault (s : State) : s.tick.fault =
    if s.raisesHc && s.nvic.hc.en && s.nvic.hc.pend || s.raisesLt && s.nvic.lt.en && s.nvic.lt.pend ||
      s.raisesDma && s.nvic.dma.en && s.nvic.dma.pend then s.fault ||| 0b000100#6 else s.fault := by
  have fault : ∀ (s : State) b q, (s.raiseIf b q).fault =
      if b && (s.nvic.line q).en && (s.nvic.line q).pend then s.fault ||| 0b000100#6 else s.fault := fun s b q => by
    rw [State.raiseIf_eq]
  have en : ∀ (s : State) b q q', ((s.raiseIf b q).nvic.line q').en = (s.nvic.line q').en := fun s b q q' =>
    ((State.raiseIf_keeps s b q).2 q').1
  have twice : ∀ x : BitVec 6, x ||| 0b000100#6 ||| 0b000100#6 = x ||| 0b000100#6 := by decide
  unfold State.tick
  simp only [fault, en, State.raiseIf_pend, State.tickDma_fault, State.tickLt_fault, State.tickPwm_fault,
    State.tickDma_nvic, State.tickLt_nvic, State.tickPwm_nvic, reduceCtorEq, decide_false, Bool.and_false,
    Bool.false_and, Bool.or_false]
  simp only [Nvic.line]
  by_cases x : (s.raisesHc && s.nvic.hc.en && s.nvic.hc.pend) = true <;>
  by_cases y : (s.raisesLt && s.nvic.lt.en && s.nvic.lt.pend) = true <;>
  by_cases z : (s.raisesDma && s.nvic.dma.en && s.nvic.dma.pend) = true <;>
  simp only [x, y, z, twice, Bool.or_true, Bool.or_false, Bool.or_self, if_true, if_false, Bool.false_eq_true]

/-- A transfer completes in a tick exactly if it is in flight before and no longer after (43_scanline_vga.md R123). -/
theorem State.completes_iff (s : State) : s.completes = true ↔ s.dma.busy = true ∧ s.tick.dma.busy = false := by
  rw [State.tick_dma]
  unfold State.tickDma
  by_cases h : s.completes = true
  · simp only [State.completes, Bool.and_eq_true] at h
    simp [State.completes, h, State.dmaComplete, State.ageFlight]
  · by_cases hb : s.dma.busy = true <;> simp [h, hb, State.ageFlight]

/-! ### The units of a transfer (20_memory.md R56). -/

@[simp] theorem raceUnits_length (f : Nat → Bool) (m : Memory) (b : Addr) (n unit : Nat) (us : List Halfword)
    (k : Nat) (a : Addr) : (raceUnits f m b n unit k a us).length = us.length := by
  induction us generalizing k a with
  | nil => rfl
  | cons u us ih => simp [raceUnits, ih]

/-- Unit `k` after a racing write: the new value of its bytes if the write touches it and the choice takes it. -/
theorem raceUnits_getElem? (f : Nat → Bool) (m : Memory) (b : Addr) (n unit : Nat) (us : List Halfword) (k0 : Nat)
    (a : Addr) (k : Nat) :
    (raceUnits f m b n unit k0 a us)[k]? = us[k]?.map fun u =>
      if unitTouched (a + BitVec.ofNat 32 (k * unit)) unit b n && f (k0 + k)
      then BitVec.ofNat 16 (m.load (a + BitVec.ofNat 32 (k * unit)) unit) else u := by
  induction us generalizing k0 a k with
  | nil => simp [raceUnits]
  | cons u us ih =>
    cases k with
    | zero => simp [raceUnits]
    | succ k =>
      have : a + BitVec.ofNat 32 unit + BitVec.ofNat 32 (k * unit) = a + BitVec.ofNat 32 ((k + 1) * unit) := by
        rw [BitVec.add_assoc, ← BitVec.ofNat_add]; congr 2; ring
      simp only [raceUnits, List.getElem?_cons_succ, ih, this, show k0 + 1 + k = k0 + (k + 1) by omega]

@[simp] theorem fetchUnits_length (m : Memory) (a : Addr) (unit n : Nat) : (fetchUnits m a unit n).length = n := by
  induction n generalizing a with
  | zero => rfl
  | succ n ih => simp [fetchUnits, ih]

/-- A host write while a transfer reads memory: memory, the transfer's units and the counter of races change. -/
theorem State.store_of_reads {s : State} (h : s.readsMemory = true) (b : Addr) (n v : Nat) : s.store b n v = { s with
    mem := s.mem.store b n v, races := s.races + 1
    dma := { s.dma with flight := { s.dma.flight with
      units := raceUnits (Config.drawRace s.races) (s.mem.store b n v) b n s.dma.unit 0 s.dma.flight.origin
        s.dma.flight.units } } } := by
  unfold State.store State.race
  exact if_pos h

/-- A host write while no transfer reads memory changes memory only. -/
theorem State.store_of_not_reads {s : State} (h : s.readsMemory = false) (b : Addr) (n v : Nat) :
    s.store b n v = { s with mem := s.mem.store b n v } := by
  unfold State.store State.race
  exact if_neg (by simpa [State.readsMemory] using h)

/-! ### Guard words, single bits, buffers. -/

/-- An access touches a guard word exactly if one of its bytes is a guard-word byte (41_framebuffer.md R95). -/
theorem State.touchesGuard_iff (s : State) (a : Addr) (n : Nat) :
    s.touchesGuard a n = true ↔ ∃ k, k < n ∧ s.guardByte (a + BitVec.ofNat 32 k) = true := by
  induction n generalizing a with
  | zero => simp [State.touchesGuard]
  | succ n ih =>
    simp only [State.touchesGuard, Bool.or_eq_true, ih, addr_add_succ]
    constructor
    · rintro (h | ⟨k, hk, h⟩)
      · exact ⟨0, by omega, by simpa using h⟩
      · exact ⟨k + 1, by omega, h⟩
    · rintro ⟨k, hk, h⟩
      cases k with
      | zero => left; simpa using h
      | succ k => right; exact ⟨k, by omega, h⟩

/-- `setBit` sets one bit and leaves the other seven. -/
theorem setBit_getLsbD (b : Byte) (j k : Nat) (hj : j < 8) (hk : k < 8) (v : Bool) :
    (setBit b j v).getLsbD k = if k = j then v else b.getLsbD k := by
  have h1 : ∀ i, (BitVec.ofNat 8 (2 ^ j)).getLsbD i = (decide (i < 8) && decide (j = i)) := by
    intro i; rw [BitVec.getLsbD_ofNat, Nat.testBit_two_pow]
  unfold setBit
  cases v
  · simp only [Bool.false_eq_true, if_false, BitVec.getLsbD_and, BitVec.getLsbD_not, h1]
    by_cases h : k = j
    · subst h; simp [hk]
    · have : ¬ j = k := fun e => h e.symm
      simp [h, this, hk]
  · simp only [if_true, BitVec.getLsbD_or, h1]
    by_cases h : k = j
    · subst h; simp [hk]
    · have : ¬ j = k := fun e => h e.symm
      simp [h, this]

/-- The size of a buffer does not depend on its address. -/
@[simp] theorem bufferOf_size (m : Mode) (w h : Nat) (b : Addr) : (bufferOf m w h b).size = bufferSize m w h := by
  cases m <;> rfl

/-- A drawn buffer address is 4-byte aligned and its buffer lies inside SRAM (41_framebuffer.md R88). -/
theorem drawBase_spec (d size : Nat) (h : size ≤ 98304) : (drawBase d size).toNat % 4 = 0 ∧
    0x20000000 ≤ (drawBase d size).toNat ∧ (drawBase d size).toNat + size ≤ 0x20000000 + 98304 := by
  have hr : Config.drawFbBase d % ((98304 - size) / 4 + 1) < (98304 - size) / 4 + 1 := Nat.mod_lt _ (by omega)
  have e : (drawBase d size).toNat = 0x20000000 + 4 * (Config.drawFbBase d % ((98304 - size) / 4 + 1)) := by
    unfold drawBase Config.sramBase Config.sramSize
    generalize Config.drawFbBase d % ((98304 - size) / 4 + 1) = r at *
    rw [BitVec.toNat_ofNat]
    exact Nat.mod_eq_of_lt (by omega)
  rw [e]
  generalize Config.drawFbBase d % ((98304 - size) / 4 + 1) = r at *
  omega

end Sys2Proof.Machine
end

