-- ==== Sys2Proof/Laws/Outputs.lean ====
section
/-! SUPPORT. The transfer in flight along a run (43_scanline_vga.md R121; 20_memory.md R56): what carries it on, the bound
on the steps it still takes, and that more fuel than the bound changes nothing of what it is sent with. -/

namespace Sys2Proof.Machine

/-! ### A transfer that is carried on. -/

/-- From `s` to `t` the transfer in flight is carried on: nothing that bears on its end changes. -/
structure State.Carries (s t : State) : Prop where
  inbox : t.inbox = s.inbox
  nvic : t.nvic = s.nvic
  time : t.transferTime = s.transferTime
  age : t.dma.flight.age = s.dma.flight.age

theorem State.Carries.refl (s : State) : s.Carries s := ⟨rfl, rfl, rfl, rfl⟩

/-- What keeps the DMA channel but for the source, the done flag and the units carries the transfer on. -/
theorem State.Carries.of_dma {s t : State} (h1 : t.inbox = s.inbox) (h2 : t.nvic = s.nvic)
    (h3 : t.dma = { s.dma with
      src := t.dma.src, done := t.dma.done, flight := { s.dma.flight with units := t.dma.flight.units } })
    (h4 : t.spi = s.spi) (h5 : t.port = s.port) : s.Carries t := by
  refine ⟨h1, h2, ?_, by rw [h3]⟩
  simp only [State.transferTime, State.unitTime, h4, h5]
  rw [h3]

theorem State.store_carries (s : State) (a : Addr) (n v : Nat) : s.Carries (s.store a n v) := by
  refine .of_dma (by simp) (by simp) ?_ (by simp) (by simp)
  unfold State.store State.race
  split <;> rfl

theorem State.writeMemory_carries (s : State) (a : Addr) (w : Width) (v : Word) : s.Carries (s.writeMemory a w v) := by
  refine .of_dma (by simp) (by simp) ?_ (by simp) (by simp)
  unfold State.writeMemory State.store State.race
  split <;> simp

theorem State.writeAlias_carries (s : State) (a : Addr) (v : Word) : s.Carries (s.writeAlias a v) := by
  refine .of_dma (by simp) (by simp) ?_ (by simp) (by simp)
  unfold State.writeAlias State.store State.race
  split <;> simp

/-- A start leaves the channel idle; a failed one touches neither it nor what bears on its transfer. -/
theorem State.allocateAndStart_carries (s : State) (m : Mode) (w h : Nat) (t : Timing) :
    (s.allocateAndStart m w h t).dma.busy = false ∨
      (s.allocateAndStart m w h t).dma = s.dma ∧ s.Carries (s.allocateAndStart m w h t) := by
  unfold State.allocateAndStart
  split
  · exact .inr ⟨rfl, ⟨rfl, rfl, rfl, rfl⟩⟩
  · exact .inl (by cases m <;> rfl)

theorem State.beginVga_carries (s : State) (margin : Nat) (m : Mode) (w h : Nat) :
    (s.beginVga margin m w h).dma.busy = false ∨
      (s.beginVga margin m w h).dma = s.dma ∧ s.Carries (s.beginVga margin m w h) := by
  unfold State.beginVga
  split_ifs
  · exact .inr ⟨rfl, ⟨rfl, rfl, rfl, rfl⟩⟩
  · exact .inr ⟨rfl, ⟨rfl, rfl, rfl, rfl⟩⟩
  · split
    · exact .inr ⟨rfl, ⟨rfl, rfl, rfl, rfl⟩⟩
    · exact s.allocateAndStart_carries _ _ _ _

/-- A stop leaves the channel idle, or changes nothing. -/
theorem State.stop_idle (s : State) : s.stop.dma.busy = false ∨ s.stop = s := by
  unfold State.stop
  split
  · exact .inr rfl
  · exact .inl rfl

/-- What carries a transfer on, or leaves the channel idle, does so after a stop. -/
theorem State.stop_carries {s t : State} (h : t.dma.busy = false ∨ t.dma = s.stop.dma ∧ s.stop.Carries t) :
    t.dma.busy = false ∨ s.Carries t := by
  rcases h with h | ⟨h, hc⟩
  · exact .inl h
  · rcases s.stop_idle with hs | hs
    · exact .inl (by rw [h, hs])
    · exact .inr (by rwa [hs] at hc)

theorem State.vgaLine_carries (s : State) : s.draws < s.vgaLine.draws ∨ s.Carries s.vgaLine := by
  by_cases ha : s.armed
  · left
    simp [State.vgaLine, State.vgaTransfer, ha, State.startTransfer]
  · right
    refine .of_dma ?_ ?_ ?_ ?_ ?_ <;> simp [State.vgaLine, State.vgaTransfer, ha]
    unfold State.vgaEndFrame
    split <;> simp

theorem State.rewind_dma (s : State) : s.rewind.dma = { s.dma with src := s.rewind.dma.src } := by
  unfold State.rewind
  split
  · split <;> rfl
  · rfl

/-- Every operation ends the transfer in flight, starts another (which draws a DMA_LAT), or carries it on. -/
theorem exec_carries {i : Instr} {s t : State} (h : exec i s = .next t) :
    t.dma.busy = false ∨ s.draws < t.draws ∨ s.Carries t := by
  cases i <;> simp only [exec] at h
  case begin sel =>
    simp only [execBegin, Host.Outcome.next.injEq] at h
    subst h
    refine (State.stop_carries ?_).imp id .inr
    unfold State.beginWith
    split
    · exact .inr ⟨rfl, ⟨rfl, rfl, rfl, rfl⟩⟩
    · exact State.beginVga_carries _ _ _ _ _
  case beginComposite sel =>
    simp only [execBeginComposite, Host.Outcome.next.injEq] at h
    subst h
    refine (State.stop_carries ?_).imp id .inr
    split
    · exact .inr ⟨rfl, ⟨rfl, rfl, rfl, rfl⟩⟩
    · exact State.allocateAndStart_carries _ _ _ _ _
  case endMode =>
    simp only [execEnd, Host.Outcome.next.injEq] at h
    subst h
    split
    · exact .inr (.inr (.refl s))
    · exact (State.stop_carries (t := s.stop.setStatus statusOk) (.inr ⟨rfl, ⟨rfl, rfl, rfl, rfl⟩⟩)).imp id .inr
  case evLt =>
    simp only [execEvLt, Host.Outcome.next.injEq] at h
    subst h
    right
    split
    · unfold State.rasterLine
      split
      · exact .inr (.refl s)
      · exact s.vgaLine_carries
      · exact s.vgaLine_carries
      · left; simp [State.compositeLine, State.startSlotTransfer]
      · left; simp [State.compositeLine, State.startSlotTransfer]
    · exact .inr ⟨rfl, rfl, rfl, rfl⟩
  case setPixel =>
    simp only [execSetPixel] at h
    right; right
    split at h <;> cases h
    · obtain ⟨a, b, c, d⟩ := s.store_carries (s.pixelAddr s.argX s.argY) 1 (s.pixelByte s.argX s.argY).toNat
      exact ⟨a, b, c, d⟩
    · exact ⟨rfl, rfl, rfl, rfl⟩
  case getPixel =>
    simp only [execGetPixel] at h
    split at h <;> cases h <;> exact .inr (.inr ⟨rfl, rfl, rfl, rfl⟩)
  case evHc =>
    cases h
    exact .inr (.inr (.of_dma (by simp) (by simp) (by simp only; rw [State.rewind_dma]) (by simp) (by simp)))
  case evDmac => cases h; exact .inr (.inr ⟨rfl, rfl, rfl, rfl⟩)
  case setMonitorRange => cases h; exact .inr (.inr ⟨rfl, rfl, rfl, rfl⟩)
  case waitVblank => cases h; exact .inr (.inr (.of_dma (by simp) (by simp) (by simp) (by simp) (by simp)))
  case waitActive => cases h; exact .inr (.inr (.of_dma (by simp) (by simp) (by simp) (by simp) (by simp)))

theorem AccessEffect.carries {s t : State} (h : AccessEffect s t) :
    t.dma.busy = false ∨ s.draws < t.draws ∨ s.Carries t := by
  cases h with
  | command c hd h => exact exec_carries h
  | writeMemory a w v => exact .inr (.inr (s.writeMemory_carries a w v))
  | writeAlias a v => exact .inr (.inr (s.writeAlias_carries a v))
  | illegal => exact .inr (.inr ⟨rfl, rfl, rfl, rfl⟩)
  | badShape => exact .inr (.inr ⟨rfl, rfl, rfl, rfl⟩)
  | readMemory a w => exact .inr (.inr ⟨rfl, rfl, rfl, rfl⟩)
  | readWindow off w => exact .inr (.inr (.of_dma (by simp) (by simp) (by simp) (by simp) (by simp)))
  | readAlias a => exact .inr (.inr (.of_dma (by simp) (by simp) (by simp) (by simp) (by simp)))
  | writeRegister off v => exact .inr (.inr (.of_dma (by simp) (by simp) (by simp) (by simp) (by simp)))

/-! ### The bound on the steps. -/

theorem Nvic.pending_le (n : Nvic) : n.pending ≤ 3 := by
  have h : ∀ b : Bool, b.toNat ≤ 1 := Bool.toNat_le
  have := h n.lt.pend
  have := h n.hc.pend
  have := h n.dma.pend
  unfold Nvic.pending
  omega

theorem State.nextEvent_pend {s : State} {q : Source} (h : s.nextEvent = some q) : (s.nvic.line q).pend = true := by
  have c : ∀ {q r : Source}, s.nvic.candidate q = some r → (s.nvic.line r).pend = true := by
    intro q r h
    unfold Nvic.candidate Nvic.ready at h
    split at h <;> simp_all
  have k : ∀ {a b : Option Source} {r : Source}, s.nvic.higher a b = some r → a = some r ∨ b = some r := by
    intro a b r h
    unfold Nvic.higher at h
    split at h
    · exact .inr h
    · exact .inl h
    · split at h
      · exact .inr h
      · exact .inl h
  unfold State.nextEvent at h
  split at h
  · rcases k h with h | h
    · exact (k h).elim c c
    · exact c h
  · cases h

theorem State.enterHandler_pending {s : State} {q : Source} (h : (s.nvic.line q).pend = true) :
    (s.enterHandler q).nvic.pending < s.nvic.pending := by
  cases q <;> simp_all [State.enterHandler, Nvic.setPend, Nvic.pending, Nvic.line]

theorem State.tick_time (s : State) (h : s.tick.dma.busy = true) : s.tick.transferTime = s.transferTime ∧
    s.tick.dma.flight.age = s.dma.flight.age + 1 ∧ s.dma.flight.age + 1 < s.transferTime ∧
    s.tick.dma.flight.units = s.dma.flight.units ∧ s.dma.busy = true := by
  rw [State.tick_dma] at h
  have hc : s.completes = false := by
    by_contra hc
    rw [State.tickDma, if_pos (by simpa using hc)] at h
    cases h
  have hb : s.dma.busy = true := by
    by_contra hb
    rw [State.tickDma, hc] at h
    simp [hb] at h
  have hd : s.tick.dma = { s.dma with flight := { s.dma.flight with age := s.dma.flight.age + 1 } } := by
    rw [State.tick_dma, State.tickDma, hc, hb]
    rfl
  refine ⟨?_, by rw [hd], by simpa [State.completes, hb] using hc, by rw [hd], hb⟩
  simp only [State.transferTime, State.unitTime, State.tick_spi, State.tick_port]
  rw [hd]

/-- While the transfer in flight stays in flight, each step takes one from the bound. -/
theorem State.stepsLeft_lt {s t : State} (h : step s = .next t) (hs : s.sameTransfer t = true) :
    t.stepsLeft < s.stepsLeft := by
  simp only [State.sameTransfer, Bool.and_eq_true, beq_iff_eq] at hs
  obtain ⟨hb, hd⟩ := hs
  have carried : ∀ {u v : State}, v.dma.busy = false ∨ u.draws < v.draws ∨ u.Carries v → v.dma.busy = true →
      v.draws = u.draws → u.Carries v := by
    intro u v h hb hd
    rcases h with h | h | h
    · rw [h] at hb; cases hb
    · omega
    · exact h
  have bound : ∀ {u v : State}, u.Carries v → v.stepsLeft = u.stepsLeft := by
    rintro u v ⟨a, b, c, d⟩
    simp only [State.stepsLeft]
    rw [a, b, c, d]
  have ticked : ∀ u : State, u.tick.dma.busy = true → u.tick.stepsLeft < u.stepsLeft := by
    intro u hb
    obtain ⟨a, b, c, _, _⟩ := u.tick_time hb
    have := u.tick.nvic.pending_le
    simp only [State.stepsLeft]
    rw [a, b, State.tick_inbox]
    omega
  cases step_effect h with
  | handler q hq hu =>
    rename_i u
    have c := bound (carried (exec_carries hu) (by simpa using hb) (by simpa using hd))
    have := State.enterHandler_pending (State.nextEvent_pend hq)
    have e : u.leaveHandler.stepsLeft = u.stepsLeft :=
      bound (.of_dma (by simp) (by simp) (by simp) (by simp) (by simp))
    have e2 : (s.enterHandler q).stepsLeft + s.nvic.pending = s.stepsLeft + (s.enterHandler q).nvic.pending := by
      simp only [State.stepsLeft]
      show 4 * (s.transferTime - s.dma.flight.age) + s.inbox.length + _ + _ = _
      omega
    omega
  | tick hq => exact ticked s hb
  | idle hq hf rest hi =>
    have := ticked _ hb
    have e : State.stepsLeft { s with inbox := rest } < s.stepsLeft := by
      simp only [State.stepsLeft, hi, List.length_cons]
      show 4 * (s.transferTime - s.dma.flight.age) + rest.length + s.nvic.pending < _
      omega
    omega
  | access hq hf a rest hi ha he =>
    have c := bound (carried he.carries hb hd)
    have e : State.stepsLeft { s with inbox := rest } < s.stepsLeft := by
      simp only [State.stepsLeft, hi, List.length_cons]
      show 4 * (s.transferTime - s.dma.flight.age) + rest.length + s.nvic.pending < _
      omega
    omega

/-- Fuel beyond the bound changes nothing. -/
theorem State.unitsAtEnd_of_le {m n : Nat} {s : State} (hm : s.stepsLeft ≤ m) (hn : s.stepsLeft ≤ n) :
    s.unitsAtEnd m = s.unitsAtEnd n := by
  have last : ∀ (n : Nat) (s : State), s.stepsLeft = 0 → s.unitsAtEnd n = s.dma.flight.units := by
    intro n s h
    cases n with
    | zero => rfl
    | succ n =>
      rw [State.unitsAtEnd]
      split
      · rename_i t ht
        split
        · rename_i hs
          have := State.stepsLeft_lt ht hs
          omega
        · rfl
      · rfl
      · rfl
  induction m generalizing n s with
  | zero => rw [last _ _ (Nat.le_zero.1 hm), last _ _ (Nat.le_zero.1 hm)]
  | succ m ih =>
    cases n with
    | zero => rw [last _ _ (Nat.le_zero.1 hn), last _ _ (Nat.le_zero.1 hn)]
    | succ n =>
      simp only [State.unitsAtEnd]
      split
      · rename_i t ht
        split
        · rename_i hs
          have := State.stepsLeft_lt ht hs
          exact ih (by omega) (by omega)
        · rfl
      · rfl
      · rfl

end Sys2Proof.Machine
end

