-- ==== Sys2Proof/Laws/PerInstr.lean ====
section
/-! SUPPORT. Statements for all instructions, one lemma per constructor: bit 7 of an operation's word tells its format
(30_encoding.md R59). -/

namespace Sys2Proof.Laws.FormatBit

/-- Bit 7 of the word is 0 exactly where the host may issue the operation. -/
def Statement (i : Instr) : Prop := (encode i).getLsbD 7 = !i.hostIssuable

theorem opcode_bit (i : Instr) : (encode i).getLsbD 7 = (opcodeOf i).getLsbD 7 := by
  unfold encode
  rw [BitVec.getLsbD_append]
  simp

theorem begin (sel : Nat) : Statement (.begin sel) :=
  (opcode_bit _).trans (by simp [opcodeOf, Instr.hostIssuable])
theorem beginComposite (sel : Nat) : Statement (.beginComposite sel) :=
  (opcode_bit _).trans (by simp [opcodeOf, Instr.hostIssuable])
theorem endMode : Statement .endMode := (opcode_bit _).trans rfl
theorem setMonitorRange : Statement .setMonitorRange := (opcode_bit _).trans rfl
theorem setPixel : Statement .setPixel := (opcode_bit _).trans rfl
theorem getPixel : Statement .getPixel := (opcode_bit _).trans rfl
theorem waitVblank : Statement .waitVblank := (opcode_bit _).trans rfl
theorem waitActive : Statement .waitActive := (opcode_bit _).trans rfl
theorem evLt : Statement .evLt := (opcode_bit _).trans rfl
theorem evHc : Statement .evHc := (opcode_bit _).trans rfl
theorem evDmac : Statement .evDmac := (opcode_bit _).trans rfl

end Sys2Proof.Laws.FormatBit
end

