-- ==== Sys2Proof/Laws/Solver.lean ====
section
/-! SUPPORT. The modeline solver: what the search space is, what an accepted combination passed, and what `finish`
checked (40_modeline.md). -/

namespace Sys2Proof.Machine

theorem mem_upTo (a b x : Nat) : x ∈ upTo a b ↔ a ≤ x ∧ x ≤ b := by
  unfold upTo
  simp only [List.mem_map, List.mem_range]
  constructor
  · rintro ⟨k, hk, rfl⟩; omega
  · intro h; exact ⟨x - a, by omega, by omega⟩

theorem mem_downTo (b a x : Nat) : x ∈ downTo b a ↔ a ≤ x ∧ x ≤ b := by
  unfold downTo
  rw [List.mem_reverse, mem_upTo]

theorem evenDown_spec (v : Nat) : evenDown v ≤ v ∧ v ≤ evenDown v + 1 ∧ evenDown v % 2 = 0 := by
  unfold evenDown
  omega

/-- A combination that passes has passed the two tests that the slack loop makes first. -/
theorem accepts_slack {w h : Nat} {win : Window} {c : Candidate} (hh : accepts w h win c = true) :
    (geometricallyValid (hGeometry w) (vGeometry h c.slack) && lineOk win (c.xscale * (hGeometry w).htotal)) = true := by
  simp only [accepts, Bool.and_eq_true] at hh ⊢
  exact hh.1

theorem searchYscale_eq_none (w h : Nat) (win : Window) (xs s : Nat) :
    searchYscale w h win xs s = none ↔ ∀ ys, 1 ≤ ys → ys ≤ 8 → accepts w h win ⟨xs, s, ys⟩ = false := by
  unfold searchYscale
  rw [List.findSome?_eq_none_iff]
  constructor
  · intro hh ys h1 h2
    have := hh ys ((mem_upTo _ _ _).2 ⟨h1, h2⟩)
    by_contra hc
    simp at hc
    simp [hc] at this
  · intro hh ys hy
    rw [mem_upTo] at hy
    rw [if_neg]
    rw [hh ys hy.1 hy.2]
    simp

theorem searchSlack_eq_none (w h : Nat) (win : Window) (xs : Nat) :
    searchSlack w h win xs = none ↔
      ∀ s, s ≤ 49 → ∀ ys, 1 ≤ ys → ys ≤ 8 → accepts w h win ⟨xs, s, ys⟩ = false := by
  unfold searchSlack
  rw [List.findSome?_eq_none_iff]
  constructor
  · intro hh s hs ys h1 h2
    have := hh s ((mem_upTo _ _ _).2 ⟨by omega, hs⟩)
    by_contra hc
    simp at hc
    rw [if_pos (accepts_slack hc), searchYscale_eq_none] at this
    rw [this ys h1 h2] at hc
    cases hc
  · intro hh s hs
    rw [mem_upTo] at hs
    split
    · rw [searchYscale_eq_none]; exact hh s hs.2
    · rfl

/-- What the search returns lies in the search space and passes every test. -/
theorem search_some {w h : Nat} {win : Window} {c : Candidate} (hc : search w h win = some c) :
    2 ≤ c.xscale ∧ c.xscale ≤ 16 ∧ c.slack ≤ 49 ∧ 1 ≤ c.yscale ∧ c.yscale ≤ 8 ∧ accepts w h win c = true := by
  obtain ⟨xs, hx, h1⟩ := List.exists_of_findSome?_eq_some hc
  obtain ⟨s, hs, h2⟩ := List.exists_of_findSome?_eq_some h1
  split at h2
  · obtain ⟨ys, hy, h3⟩ := List.exists_of_findSome?_eq_some h2
    split at h3
    · cases h3
      rw [mem_downTo] at hx
      rw [mem_upTo] at hs hy
      exact ⟨hx.1, hx.2, hs.2, hy.1, hy.2, by assumption⟩
    · cases h3
  · cases h2

/-- What `solve` returns is the record of the combination the search found, and `finish` has passed it (R78). -/
theorem solve_some {margin w h : Nat} {color : Bool} {win : Window} {t : Timing}
    (hs : solve margin w h color win = some t) :
    ∃ c, search w h win = some c ∧ t = timingOf margin color w h c ∧ (color = true → 6 ≤ c.xscale) ∧
      hsStartClk margin color w c.xscale + 2 ≤ htotalClk w c.xscale := by
  unfold solve at hs
  cases hc : search w h win with
  | none => rw [hc] at hs; cases hs
  | some c =>
    rw [hc] at hs
    simp only [Option.bind_some, finish] at hs
    split at hs
    · cases hs
    · split at hs
      · cases hs
      · split at hs
        · cases hs
        · cases hs
          refine ⟨c, rfl, rfl, ?_, by omega⟩
          intro hcol
          rename_i h2 _
          by_contra hlt
          exact h2 (by rw [hcol, Bool.true_and, decide_eq_true_eq]; exact not_le.1 hlt)

end Sys2Proof.Machine
end

