-- ==== Sys2Proof/Tests/Slice0.lean ====
section
/-! SUPPORT. Tests: each expected value is taken from 95_test_vectors.md or a worked example of the rule named. -/

namespace Sys2Proof.Machine

set_option Elab.async false

/-! ### Decoding (30_encoding.md R62, R69; 95_test_vectors.md section 2.1). -/

theorem test_decode_begin : decode 0b00000000000000000000001000000001#32 = .ok (.begin 2) := by decide
theorem test_decode_beginComposite : decode 0b00000000000000000000001100000010#32 = .ok (.beginComposite 3) := by decide
theorem test_decode_end : decode 0b00000000000000000000000000000011#32 = .ok .endMode := by decide
theorem test_decode_setMonitorRange : decode 0b00000000000000000000000000000100#32 = .ok .setMonitorRange := by decide
theorem test_decode_setPixel : decode 0b00000000000000000000000000000101#32 = .ok .setPixel := by decide
theorem test_decode_getPixel : decode 0b00000000000000000000000000000110#32 = .ok .getPixel := by decide
theorem test_decode_waitVblank : decode 0b00000000000000000000000000000111#32 = .ok .waitVblank := by decide
theorem test_decode_waitActive : decode 0b00000000000000000000000000001000#32 = .ok .waitActive := by decide
theorem test_decode_evLt : decode 0b00000000000000000000000010000001#32 = .ok .evLt := by decide
theorem test_decode_evHc : decode 0b00000000000000000000000010000010#32 = .ok .evHc := by decide
theorem test_decode_evDmac : decode 0b00000000000000000000000010000011#32 = .ok .evDmac := by decide
/-- DE10 to DE15. -/
theorem test_illegal_words : decodeCmd 0x00000103#32 = .error .selectorNotZero ∧
    decodeCmd 0x00010003#32 = .error .reservedBits ∧ decodeCmd 0x00000000#32 = .error .reservedOpcode ∧
    decodeCmd 0x00000009#32 = .error .reservedOpcode ∧ decodeCmd 0x00000081#32 = .error .notHostIssuable ∧
    decodeCmd 0x80000001#32 = .error .reservedBits := by decide
/-- DE16: every SEL is a legal BEGIN. -/
theorem test_begin_any_sel : decodeCmd 0x0000FF01#32 = .ok (.begin 255) := by decide
theorem test_bytes_wrong_length : decodeBytes [1, 2, 0] = .error .wrongLength := by decide
theorem test_table_words : decodeTableWord 32 0x81 = some .evLt ∧ decodeTableWord 32 0x201 = some (.begin 2) ∧
    decodeTableWord 8 0x03 = some .endMode := by decide

/-! ### WellFormed: an ill-formed term for each check. -/

theorem test_wellFormed_refuses_begin : (Instr.begin 256).wellFormed = false := by decide
theorem test_wellFormed_refuses_beginComposite : (Instr.beginComposite 300).wellFormed = false := by decide
theorem test_hostIssuable_refuses_events : Instr.evLt.hostIssuable = false ∧ Instr.evHc.hostIssuable = false ∧
    Instr.evDmac.hostIssuable = false := by decide

/-! ### The solver (95_test_vectors.md section 2.2). -/

/-- The default window (00_scope.md R8). -/
def defaultWindow : Window := State.reset.win

/-- SV1. -/
theorem test_solve_320_240_color : solve 0 320 240 true defaultWindow =
    some ⟨7, 2, 400, 328, 376, 250, 242, 243, 2800, 2296, 336, 504, 30000, 60000, 0⟩ := by decide +kernel
/-- SV10. -/
theorem test_solve_320_240_mono_margin16 : solve 16 320 240 false defaultWindow =
    some ⟨7, 2, 400, 328, 376, 250, 242, 243, 2800, 2480, 320, 320, 30000, 60000, 0⟩ := by decide +kernel
/-- SV3: an exact hit on the bound is rejected. -/
theorem test_solve_640_480_mono : solve 0 640 480 false defaultWindow =
    some ⟨3, 1, 800, 656, 752, 501, 484, 485, 2400, 2016, 288, 384, 35000, 69860, 0⟩ := by decide +kernel
/-- SV6. -/
theorem test_solve_160_120_color : solve 0 160 120 true defaultWindow =
    some ⟨15, 3, 200, 164, 188, 134, 123, 124, 3000, 2460, 360, 540, 28000, 69651, 0⟩ := by decide +kernel
/-- SV9. -/
theorem test_solve_320_380_color : solve 0 320 380 true defaultWindow =
    some ⟨7, 1, 400, 328, 376, 429, 390, 392, 2800, 2296, 336, 504, 30000, 69930, 0⟩ := by decide +kernel
/-- SV12. -/
theorem test_solve_strict_hmin : solve 0 320 240 true ⟨30000, 83000, 57, 70⟩ =
    some ⟨6, 2, 400, 328, 376, 251, 242, 243, 2400, 1968, 288, 432, 35000, 69721, 0⟩ := by decide +kernel
/-- SV13, SV16, SV18, SV19, SV20, SV21, and the margin vector at 560. -/
theorem test_solve_failures : solve 0 320 240 true ⟨27000, 30000, 57, 70⟩ = none ∧
    solve 0 640 480 true defaultWindow = none ∧ solve 0 400 300 true defaultWindow = none ∧
    solve 0 8 8 false defaultWindow = none ∧ solve 0 100 100 false defaultWindow = none ∧
    solve 0 128 240 false defaultWindow = none ∧ solve 560 320 240 true defaultWindow = none := by decide +kernel

/-! ### Small states (95_test_vectors.md sections 2.3 and 2.6: `FB_BASE` 0x20001000). -/

/-- The timing record of 320×240 (SV1). -/
def timing320 : Timing := ⟨7, 2, 400, 328, 376, 250, 242, 243, 2800, 2296, 336, 504, 30000, 60000, 0⟩

/-- A running, locked VGA mode at the start of a frame, 320×240. -/
def running (mode : Mode) : State :=
  { State.reset with
    life := .running, mode := mode, tim := timing320, fb := bufferOf mode 320 240 0x20001000#32
    synced := true, armed := true, vpol := true
    pwm := ⟨true, 505, 2800, 336, true⟩, lt := ⟨true, 0, 2800⟩
    dma := { Dma.reset with
      src := 0x20001000#32, unit := if mode = .mono then 2 else 1, irq := mode == .mono
      dst := if mode = .mono then .spi else .port }
    spi := ⟨mode == .mono, 7, 16⟩, port := ⟨mode == .color, 7⟩
    gpio := ⟨.pwm, .out, true, if mode = .mono then .gpioLow else .hiZ, if mode = .mono then .hiZ else .port⟩
    nvic := ⟨⟨true, false, 0⟩, ⟨true, false, 1⟩, ⟨mode == .mono, false, 2⟩, true⟩, dmaFirst := true }

/-- A running, locked composite mode at a line. -/
def composite (std : Standard) (line : Nat) : State :=
  { running (modeOfStandard std) with
    tim := compositeTiming std, fb := bufferOf (modeOfStandard std) 320 (Config.cHeight std) 0x20001000#32
    line := BitVec.ofNat 16 line, armed := false, vpol := false
    cslot0 := List.replicate (Config.cSlotLen std) 0, cslot1 := List.replicate (Config.cSlotLen std) 0
    gpio := ⟨.hiZ, .hiZ, false, .hiZ, .port⟩
    nvic := ⟨⟨true, false, 0⟩, ⟨false, false, 1⟩, ⟨false, false, 2⟩, true⟩ }

/-- The state with ARG0 to ARG2. -/
def State.withArgs (s : State) (x y v : Word) : State := { s with args := ⟨x, y, v, 0⟩ }

/-- The state with a transfer of the line in flight, as `start_transfer` leaves it with no latency. -/
def State.inFlight (s : State) : State :=
  { s with dma := { s.dma with
      len := s.fb.xfer, busy := true
      flight := ⟨0, 0, s.dma.src, false, 0, 0, 0, fetchUnits s.mem s.dma.src s.dma.unit (s.fb.xfer / s.dma.unit)⟩ } }

/-- The state with the transfer in flight `age` ticks old. -/
def State.atAge (s : State) (age : Nat) : State :=
  { s with dma := { s.dma with flight := { s.dma.flight with age := age } } }

/-- The state with the transfer in flight only `len` bytes long. -/
def State.withLen (s : State) (len : Nat) : State := { s with dma := { s.dma with len := len } }

/-- What an operation leaves. -/
def after (i : Instr) (s : State) : State :=
  match exec i s with
  | .next t => t
  | .fault _ => s
  | .refused _ => s

/-- What one step leaves. -/
def afterStep (s : State) : State :=
  match step s with
  | .next t => t
  | .fault _ => s
  | .refused _ => s

/-- The next state of an outcome. -/
def nextOf : Host.Outcome State Fault Refusal → Option State
  | .next t => some t
  | .fault _ => none
  | .refused _ => none

theorem fbCapacityBytes_bounds : 76800 ≤ Config.fbCapacityBytes ∧ Config.fbCapacityBytes ≤ 98304 := by
  unfold Config.fbCapacityBytes
  omega

/-- A buffer of at most 76,800 bytes is granted, whatever the capacity. -/
theorem allocate_small (s : State) (mode : Mode) (w h : Nat) (hs : bufferSize mode w h ≤ 76800) :
    s.allocate mode w h = some (s.allocated mode w h) :=
  if_pos (decide_eq_true (le_trans hs fbCapacityBytes_bounds.1))

/-! ### One step of each operation. -/

/-- FB10: SET_PIXEL 17, 1, 1 in Mono. -/
theorem test_setPixel_mono : (after .setPixel ((running .mono).withArgs 17 1 1)).mem = [(0x2000102F, 0x40#8)] := by
  decide +kernel
/-- FB19: SET_PIXEL 10, 2, 0x1AB in Color: byte base + 650. -/
theorem test_setPixel_color :
    (after .setPixel ((running .color).withArgs 10 2 0x1AB)).mem = [(0x20001000 + 650, 0xAB#8)] := by decide +kernel
/-- FB10: GET_PIXEL 17, 1 after it; FB11: its neighbour is 0. -/
theorem test_getPixel_mono :
    (after .getPixel { (running .mono).withArgs 17 1 0 with mem := [(0x2000102F, 0x40#8)] }).result = 1 ∧
      (after .getPixel { (running .mono).withArgs 16 1 0 with mem := [(0x2000102F, 0x40#8)] }).result = 0 := by
  decide +kernel
/-- FB16: out of bounds, FAULT bit 0; RESULT and STATUS unchanged. -/
theorem test_getPixel_outOfBounds :
    after .getPixel ((running .mono).withArgs 0 240 0) = { (running .mono).withArgs 0 240 0 with fault := 1 } := by
  decide +kernel
/-- DE4, DE5: SEL 5 and SEL 3. -/
theorem test_begin_badMode : (after (.begin 5) State.reset).status = 0xFFFFFFFC#32 ∧
    (after (.begin 3) State.reset).status = 0xFFFFFFFC#32 := by decide +kernel
/-- LC3, SV24: 320×400 Color while Running gives -3 and Off. -/
theorem test_begin_tooTall : let t := after (.begin 2) ((running .color).withArgs 320 400 0)
    t.status = 0xFFFFFFFD#32 ∧ t.stateRegister = 0 ∧ t.fb.base = 0 := by decide +kernel
/-- BEGIN_COMPOSITE from reset is the start of its mode. -/
theorem beginComposite_reset (sel : Nat) (std : Standard) (h : compositeStandard sel = some std) :
    after (.beginComposite sel) State.reset = (State.allocated { State.reset with tim := compositeTiming std }
      (modeOfStandard std) 320 (Config.cHeight std)).startMode (modeOfStandard std) := by
  have e : exec (.beginComposite sel) State.reset = .next (State.reset.allocateAndStart (modeOfStandard std) 320
      (Config.cHeight std) (compositeTiming std)) := by
    simp only [exec, execBeginComposite, h]
    rfl
  rw [after, e, State.allocateAndStart, allocate_small _ _ _ _ (by cases std <;> decide)]

/-- CO1, DE6: NTSC. -/
theorem test_beginComposite_ntsc : let t := after (.beginComposite 3) State.reset
    t.status = 0 ∧ t.stateRegister = 0x0000000B#32 ∧ t.tim.htotalClk = 5324 ∧ t.tim.vtotal = 262 ∧
      t.tim.flineHz = 15777 ∧ t.tim.fframeMhz = 60219 := by
  rw [beginComposite_reset 3 .ntsc rfl]
  decide +kernel
/-- CO2: PAL. -/
theorem test_beginComposite_pal : let t := after (.beginComposite 4) State.reset
    t.stateRegister = 0x0000000C#32 ∧ t.tim.cycle = 30 ∧ t.tim.vtotal = 312 ∧ t.tim.flineHz = 15625 ∧
      t.tim.fframeMhz = 50080 := by
  rw [beginComposite_reset 4 .pal rfl]
  decide +kernel
/-- LC1: END while Off changes nothing. -/
theorem test_end_off : after .endMode State.reset = State.reset := by decide +kernel
/-- LC2: END while Running. -/
theorem test_end_running : let t := after .endMode { running .color with status := 5, fault := 3 }
    t.status = 0 ∧ t.stateRegister = 0 ∧ t.fb.base = 0 ∧ t.fault = 3 := by decide +kernel
/-- LC5: the window is stored as given. -/
theorem test_setMonitorRange :
    (after .setMonitorRange { State.reset with args := ⟨30000, 32000, 59, 61⟩, status := 7 }).win =
      ⟨30000, 32000, 59, 61⟩ := by decide +kernel
/-- DE17; LC8 (level-sensitive); LC7: held while active. -/
theorem test_waitVblank : (after .waitVblank State.reset).waiting = none ∧
    (after .waitVblank { running .color with line := 245 }).waiting = none ∧
    (after .waitVblank { running .color with line := 100 }).waiting = some .vblank := by decide +kernel
/-- DE18, LC10, LC9. -/
theorem test_waitActive : (after .waitActive State.reset).waiting = some .active ∧
    (after .waitActive (running .color)).waiting = none ∧
    (after .waitActive { running .color with line := 245 }).waiting = some .active := by decide +kernel
/-- LK1: the lock at sample 505, with no raster work. -/
theorem test_evLt_lock : let t := after .evLt { running .color with synced := false, lt := ⟨true, 0, 2799⟩ }
    t.synced = true ∧ t.lt.period = 2800 ∧ t.line = 0 ∧ t.sub = 0 ∧ t.dma.busy = false := by decide +kernel
/-- VG1: the first repeat of line 0. -/
theorem test_evLt_vga : let t := after .evLt (running .color)
    t.dma.busy = true ∧ t.dma.src = 0x20001000#32 ∧ t.line = 0 ∧ t.sub = 1 ∧ t.ldpend = true := by decide +kernel
/-- VG3: the rewind. -/
theorem test_evHc_rewind : let t := after .evHc { running .color with
      ldpend := true, dma := { (running .color).dma with src := 0x20001140#32, done := true } }
    t.dma.src = 0x20001000#32 ∧ t.ldpend = false ∧ t.sleep = true ∧ t.fault = 0 := by decide +kernel
/-- VG10: a rewind while busy raises REWIND and is performed. -/
theorem test_evHc_busy : let t := after .evHc { (running .color).inFlight with ldpend := true }
    t.fault = 0b010000#6 ∧ t.dma.src = 0x20001000#32 - 320#32 ∧ t.ldpend = false := by decide +kernel
/-- VG12: the DMAC handler. -/
theorem test_evDmac : let t := after .evDmac { running .mono with
      dma := { (running .mono).dma with done := true }, gpio := ⟨.pwm, .out, true, .spi, .hiZ⟩ }
    t.dma.done = false ∧ t.gpio.data = .gpioLow := by decide +kernel

/-! ### Steps, registers and events. -/

/-- VG6, VG7, VG8: the end of the picture, the vertical sync, the end of the frame. -/
theorem test_vgaLine_edges :
    (after .evLt { running .color with line := 239, sub := 1 }).armed = false ∧
      (after .evLt { running .color with line := 242, armed := false }).vsyncPin = .driven false ∧
      (after .evLt { running .color with line := 249, sub := 1, armed := false, frame := 8 }).frame = 9 := by
  decide +kernel
/-- VG9: a transfer start while busy. -/
theorem test_reload : (after .evLt (running .color).inFlight).fault = 0b001000#6 := by decide +kernel
/-- CO15: the last line of an NTSC frame. -/
theorem test_compositeLine_wrap : let t := after .evLt { composite .ntsc 261 with frame := 3 }
    t.line = 0 ∧ t.frame = 4 ∧ t.dma.src = 0 := by decide +kernel
/-- CO4, CO5: the row walk. -/
theorem test_rowWalk : rowWalk { Config.composite .pal with pfixoff := 5, pstride := 4 }
      (firstRow { Config.composite .pal with pfixoff := 5, pstride := 4 } 27) 10 = [2, 6, 10, 14, 18, 22, 26, 0, 4, 8] ∧
    rowWalk { Config.composite .pal with pfixoff := 5, pstride := 30 } 2 4 = [2, 2, 2, 2] := by decide +kernel
/-- CO8: the phase after 262 lines with `C_POFF` 33. -/
theorem test_phase : (nextPhase { Config.composite .ntsc with poff := 33 })^[262] 0 = 22 := by decide +kernel
/-- EV1, EV2: the order of service. -/
theorem test_priority :
    { running .mono with nvic := ⟨⟨true, true, 0⟩, ⟨true, true, 1⟩, ⟨true, true, 2⟩, true⟩ }.nextEvent = some .lt ∧
      { running .mono with nvic := ⟨⟨true, false, 0⟩, ⟨true, true, 1⟩, ⟨true, true, 2⟩, true⟩ }.nextEvent = some .hc := by
  decide +kernel
/-- EV3: a disabled source is lost; EV4: OVERRUN. -/
theorem test_raiseEvent : (composite .ntsc 0).raiseEvent .hc = composite .ntsc 0 ∧
    (State.raiseEvent { running .color with nvic := ⟨⟨true, true, 0⟩, ⟨true, false, 1⟩, ⟨false, false, 2⟩, true⟩ } .lt).fault
      = 0b000100#6 := by
  refine ⟨rfl, by decide +kernel⟩
/-- The PWM's wrap raises HC (43_scanline_vga.md R110); it does not at other counts. -/
theorem test_tick_hc : (State.tick { running .color with pwm := ⟨true, 2799, 2800, 336, true⟩ }).nvic.hc.pend = true ∧
    (State.tick (running .color)).nvic.hc.pend = false := by decide +kernel
/-- R128: hsync is active-low over PWM ticks 0 to 335. -/
theorem test_hsyncPin : State.hsyncPin { running .color with pwm := ⟨true, 335, 2800, 336, true⟩ } = .driven false ∧
    State.hsyncPin { running .color with pwm := ⟨true, 336, 2800, 336, true⟩ } = .driven true := by decide +kernel
/-- R121, R128: 320 units of 7 ticks: with no latency the transfer completes in tick 2240. -/
theorem test_transfer_time : (running .color).inFlight.transferTime = 2240 ∧
    (running .mono).inFlight.transferTime = 2464 := by decide +kernel
/-- FB5: pixel 0 is the first bit on the data pin (20_memory.md R47). -/
theorem test_dataPin : State.dataPin { (State.inFlight { running .mono with mem := [(0x20001001, 0x80#8)] }).withLen 2 with
      gpio := ⟨.pwm, .out, true, .spi, .hiZ⟩ } = .driven true := by decide +kernel
/-- R121, R128: pixel 1 of Color is on the port from tick 7 for 7 ticks; here of a transfer of 3 pixels. -/
theorem test_portByte :
    let c := State.atAge ((State.inFlight { running .color with mem := [(0x20001001, 0xAB#8)] }).withLen 3)
    (c 6).portByte = some 0 ∧ (c 7).portByte = some 0xAB#8 ∧ (c 13).portByte = some 0xAB#8 ∧
      (c 14).portByte = some 0 := by decide +kernel
/-- RA1 to RA3. -/
theorem test_register_reads : State.reset.register 0x2C = 3 ∧ State.reset.register 0x34 = 83000 ∧
    State.reset.register 0x4C = 0 ∧ State.reset.register 0xFC = 0 := by decide +kernel
/-- RA4 and RA8: ignored writes; RA7: CFG keeps two bits. -/
theorem test_register_writes : State.reset.writeRegister 0x14 0x1234 = State.reset ∧
    State.reset.writeRegister 0x40 0xFF = State.reset ∧
    (State.reset.writeRegister 0x2C 0xFFFFFFFF).cfgRegister = 3 := by decide +kernel
/-- RA5: a 16-bit read raises BUS and returns 0. -/
theorem test_register_shape : (State.reset.readWindow 0x14 .half).fault = 0b100000#6 ∧
    (State.reset.readWindow 0x14 .half).busData = 0 := by decide +kernel
/-- FB17: a guard byte is written, with GUARD. -/
theorem test_guard : nextOf ((running .mono).busWriteMemory 0x20001028#32 .byte 0xFF) =
    some { running .mono with fault := 0b000010#6, mem := [(0x20001028, 0xFF#8)] } := by decide +kernel
/-- FB22: the alias word of pixel (17, 1). -/
theorem test_alias : nextOf ((running .mono).busWriteMemory 0x220205F8#32 .word 1) =
    some { running .mono with mem := [(0x2000102F, 0x40#8)] } := by decide +kernel
/-- FB21: a misaligned access is refused. -/
theorem test_misaligned : (running .mono).busWriteMemory 0x20001001#32 .half 1 = .refused .misalignedAccess := by
  have h : inAlias 0x20001001#32 = false ∧ inSram 0x20001001#32 = true ∧ aligned 0x20001001#32 .half = false := by
    decide +kernel
  simp [State.busWriteMemory, h]
/-- FB14: the halfword of FB13. -/
theorem test_read_half : (nextOf (State.busReadMemory { running .mono with mem := [(0x20001001, 0x80#8)] }
    0x20001000#32 .half)).map State.busData = some 0x8000#32 := by decide +kernel
/-- The word that `withFetchWord` places is the one that the next step runs: DE10's STATUS -5, and a handler. -/
theorem test_withFetchWord : (afterStep (State.reset.withFetchWord 32 0x103)).status = 0xFFFFFFFB#32 ∧
    (afterStep (State.reset.withFetchWord 32 0x82)).sleep = true := by decide +kernel

/-! ### Witnesses: for each statement with hypotheses, states and operands that meet all of them. -/

theorem witness_DecodeEncodeAgree : (Instr.begin 0).wellFormed = true ∧ (Instr.begin 255).wellFormed = true ∧
    (Instr.beginComposite 255).wellFormed = true ∧ Instr.evDmac.wellFormed = true := by decide
theorem witness_EncodeDecodeAgree : decode 0x0000FF02#32 = .ok (.beginComposite 255) := by decide
/-- One word for each way of being ILLEGAL, at the edges of its range; and legal words at the edges of theirs. -/
theorem witness_CommandWordsDecodeOrOnlySetStatus : ([0x00010001#32, 0x80000001#32, 0x80#32, 0xFF#32, 0x00#32, 0x09#32,
    0x7F#32, 0x0103#32, 0xFF08#32].all fun c => !(decodeCmd c).isOk) = true ∧
    ([0xFF01#32, 0x01#32, 0xFF02#32, 0x03#32, 0x08#32].all fun c => (decodeCmd c).isOk) = true := by decide +kernel
theorem witness_StepRunsHostCommand : let s := State.reset.withCommand 0x00000005#32
    s.nextEvent = none ∧ s.sleep = false ∧ s.waiting = none ∧
      s.inbox = [.access (.regWrite 0 .word 0x00000005#32)] ∧ decodeCmd 0x00000005#32 = .ok .setPixel := by
  decide +kernel
theorem witness_StepRunsPendingHandler : ((running .mono).withEvent .lt).nextEvent = some .lt ∧
    ((running .mono).withEvent .hc).nextEvent = some .hc ∧
    ((running .mono).withEvent .dma).nextEvent = some .dma := by decide +kernel
theorem witness_ServiceTakesHighestPriority : ((running .mono).withEvent .dma).nextEvent = some .dma ∧
    (running .mono).nextEvent = none ∧ State.reset.nextEvent = none := by decide +kernel
/-- A sleeping CPU, a held WAIT and a pending event, each with a move of the host at the head; and a free host, with a
move and with none. -/
theorem witness_HostGateHolds :
    (∃ t, step { State.reset with sleep := true, inbox := [.idle] } = .next t) ∧
    (∃ t, step { State.reset with waiting := some .active, inbox := [.idle] } = .next t) ∧
    (∃ t, step { (running .mono).withEvent .hc with inbox := [.idle] } = .next t) ∧
    ((running .mono).withEvent .hc).nvic.global = true ∧ (((running .mono).withEvent .hc).nvic.line .hc).en = true ∧
    (((running .mono).withEvent .hc).nvic.line .hc).pend = true ∧
    (State.reset.withCommand 3#32).sleep = false ∧ (State.reset.withCommand 3#32).waiting = none ∧
    (State.reset.withCommand 3#32).nvic.global = false ∧
    (State.reset.withCommand 3#32).inbox = [.access (.regWrite 0 .word 3#32)] ∧
    State.reset.sleep = false ∧ State.reset.waiting = none ∧ State.reset.nvic.global = false ∧
    State.reset.inbox = [] :=
  ⟨⟨_, rfl⟩, ⟨_, rfl⟩, ⟨_, rfl⟩, rfl, rfl, rfl, rfl, rfl, rfl, rfl, rfl, rfl, rfl, rfl⟩
theorem witness_RecordingAnEvent : (State.reset.nvic.line .lt).en = false ∧
    ((running .mono).nvic.line .lt).en = true ∧ ((running .mono).nvic.line .lt).pend = false ∧
    (((running .mono).withEvent .lt).nvic.line .lt).pend = true := by decide +kernel
theorem witness_FaultBitsAreSticky : ∀ k, ∃ t, step { State.reset with fault := 0b111111#6 } = .next t ∧
    State.hasFault { State.reset with fault := 0b111111#6 } k = true := by
  intro k
  exact ⟨_, rfl, by cases k <;> decide⟩
/-- A wrong width and a wrong offset. -/
theorem witness_BadRegisterShapeRaisesBus : Width.half ≠ .word ∧ (0x06#8).toNat % 4 ≠ 0 := by decide
theorem witness_RegisterWritesAndReads : (∀ off ∈ [0x14#8, 0x1C#8, 0x40#8, 0x4C#8, 0xFC#8],
    off.toNat % 4 = 0 ∧ off ∉ [0x00#8, 0x04#8, 0x08#8, 0x0C#8, 0x10#8, 0x2C#8]) ∧
    ∀ off ∈ [0x4C#8, 0x7C#8, 0xD8#8, 0xFC#8],
      off.toNat % 4 = 0 ∧ (0x4C ≤ off.toNat ∧ off.toNat < 0x80 ∨ 0xD8 ≤ off.toNat) := by decide
theorem witness_WindowChangesOnlyBySetMonitorRange :
    ∃ t, step ((State.reset.withArgs 1 2 3).withCommand 4#32) = .next t ∧
      t.win ≠ ((State.reset.withArgs 1 2 3).withCommand 4#32).win := ⟨_, rfl, by decide +kernel⟩
theorem witness_EndReturnsToReset : State.reset.life = .off ∧ (running .color).life = .running := ⟨rfl, rfl⟩

/-- A solver result for a margin, from the search's result and the room that `finish` needs. -/
theorem solve_of_search {margin w h : Nat} {color : Bool} {win : Window} {c : Candidate}
    (hs : search w h win = some c) (h1 : c.xscale ≠ 1) (h2 : (color && decide (c.xscale < 6)) = false)
    (h3 : hsStartClk margin color w c.xscale + 2 ≤ htotalClk w c.xscale) :
    ∃ tim, solve margin w h color win = some tim := by
  refine ⟨timingOf margin color w h c, ?_⟩
  unfold solve
  rw [hs, Option.bind_some, finish, if_neg h1, if_neg (by simp [h2]), if_neg (by omega)]

/-- A window that lets every horizontal scale up to 16 through at width 800. -/
def wideWindow : Window := ⟨1, 83000, 1, 70⟩

/-- A window for width 8. -/
def fastWindow : Window := ⟨1, 600000, 1, 100000⟩

/-- Color 320×240 at the largest margin with which it starts and the tallest Color, Mono 800 wide with SEL 0 and 1, and
the lowest height. -/
theorem witness_BeginStartsVgaMode :
    (∃ tim, solve 559 320 240 true defaultWindow = some tim) ∧
    (∃ tim, solve 0 200 380 true defaultWindow = some tim) ∧
    (∃ tim, solve 0 800 480 false wideWindow = some tim) ∧
    (∃ tim, solve 0 800 1 false wideWindow = some tim) ∧
    bufferSize .color 320 240 ≤ Config.fbCapacityBytes ∧ bufferSize .color 200 380 ≤ Config.fbCapacityBytes ∧
    bufferSize .mono 800 480 ≤ Config.fbCapacityBytes ∧ bufferSize .mono 800 1 ≤ Config.fbCapacityBytes ∧
    (State.reset.withArgs 320 240 0).args.a0.toNat = 320 ∧ (State.reset.withArgs 320 240 0).args.a1.toNat = 240 := by
  have hc := fbCapacityBytes_bounds.1
  refine ⟨?_, ?_, ?_, ?_, le_trans (by decide) hc, le_trans (by decide) hc, le_trans (by decide) hc,
    le_trans (by decide) hc, rfl, rfl⟩
  · exact solve_of_search (c := ⟨7, 0, 2⟩) (by decide +kernel) (by decide) (by decide) (by decide +kernel)
  · exact solve_of_search (c := ⟨12, 6, 1⟩) (by decide +kernel) (by decide) (by decide) (by decide +kernel)
  · exact solve_of_search (c := ⟨16, 0, 1⟩) (by decide +kernel) (by decide) (by decide) (by decide +kernel)
  · exact solve_of_search (c := ⟨16, 9, 8⟩) (by decide +kernel) (by decide) (by decide) (by decide +kernel)

/-- The rejections of BEGIN at their edges: SEL 3, widths 7 and 801, height 0, Color 381 high, 8×8 with no timing,
320×240 Color with no room for the margin, and 320×380 Color, which has a timing and no room for the buffer. -/
theorem witness_BeginRejectsInOrder : 2 < 3 ∧ (State.reset.withArgs 7 1 0).args.a0.toNat < 8 ∧
    800 < (State.reset.withArgs 801 1 0).args.a0.toNat ∧ (State.reset.withArgs 8 0 0).args.a1.toNat = 0 ∧
    380 < (State.reset.withArgs 800 381 0).args.a1.toNat ∧
    solve 0 8 8 false defaultWindow = none ∧ solve 560 320 240 true defaultWindow = none ∧
    (∃ tim, solve 0 320 380 true defaultWindow = some tim) ∧
    Config.fbCapacityBytes < bufferSize .color 320 380 := by
  refine ⟨by decide, by decide, by decide, by decide, by decide, by decide +kernel, by decide +kernel, ?_, ?_⟩
  · exact solve_of_search (c := ⟨7, 34, 1⟩) (by decide +kernel) (by decide) (by decide) (by decide +kernel)
  · exact lt_of_le_of_lt fbCapacityBytes_bounds.2 (by decide)

theorem witness_BeginCompositeStartsOrRejects : compositeStandard 3 = some .ntsc ∧ compositeStandard 4 = some .pal ∧
    compositeStandard 2 = none ∧ compositeStandard 5 = none := by decide

theorem reset_lifeInv : State.reset.LifeInv :=
  ⟨fun _ => ⟨rfl, rfl, rfl, rfl, rfl, rfl, rfl, rfl, rfl, rfl, rfl, rfl, rfl⟩, by simp [State.reset]⟩

/-- The small VGA states meet the invariants too. -/
theorem running_lifeInv (mode : Mode) (h : mode = .mono ∨ mode = .color) : (running mode).LifeInv := by
  refine ⟨by simp [running], fun _ => ?_⟩
  rcases h with rfl | rfl <;>
    exact ⟨by decide, rfl, rfl, rfl, rfl, rfl, ⟨rfl, rfl, rfl⟩, rfl, rfl, rfl, by decide, rfl, by decide⟩

theorem witness_FailedBeginLeavesOff : State.reset.LifeInv ∧
    (∃ t, exec (.begin 5) State.reset = .next t ∧ t.status ≠ 0#32) ∧
    (∃ t, exec (.beginComposite 2) State.reset = .next t ∧ t.status ≠ 0#32) ∧
    (running .color).LifeInv ∧ (∃ t, exec (.begin 3) (running .color) = .next t ∧ t.status ≠ 0#32) :=
  ⟨reset_lifeInv, ⟨_, rfl, by decide +kernel⟩, ⟨_, rfl, by decide +kernel⟩, running_lifeInv _ (.inr rfl),
    ⟨_, rfl, by decide +kernel⟩⟩

theorem witness_SourceColorExampleStarts : let s := State.reset.withArgs 320 240 0
    s.args.a0 = 320#32 ∧ s.args.a1 = 240#32 ∧ s.win = ⟨27000, 83000, 57, 70⟩ := by decide +kernel

theorem running_vgaInv (mode : Mode) (line : BitVec 16) (sub : BitVec 4) (hl : line.toNat < 250) (hs : sub.toNat < 2)
    (hm : mode = .mono ∨ mode = .color) : State.VgaInv { running mode with line := line, sub := sub } := by
  rcases hm with rfl | rfl <;>
    exact ⟨(by decide : 2 ≤ timing320.xscale), fun _ => (by decide : 6 ≤ timing320.xscale),
      (by decide : timing320.hss < timing320.hse ∧ timing320.hse < timing320.htotal),
      (by decide : timing320.vss < timing320.vse ∧ timing320.vse < timing320.vtotal),
      (by decide : 240 < timing320.vss), (by decide : timing320.vtotal < 2 ^ 16),
      (by decide : 1 ≤ timing320.yscale ∧ timing320.yscale ≤ 8), hl, hs⟩

/-- Off; a VGA mode at lines 239 and 240 and on both sides of each end of a vertical state; the composite modes; each
predicate true and false; before the lock and after it. -/
theorem witness_WaitsEndOrHold : State.reset.mode = .off ∧ State.reset.vblank = true ∧
    State.reset.active = false ∧ State.active { running .color with line := 239 } = true ∧
    State.active { running .color with line := 240 } = false ∧
    State.vblank { running .mono with line := 240 } = true ∧ State.vblank (running .mono) = false ∧
    (composite .ntsc 0).mode = modeOfStandard .ntsc ∧ (composite .pal 0).mode = modeOfStandard .pal ∧
    (∀ l ∈ [239#16, 240#16, 241#16, 242#16, 243#16, 249#16], State.VgaInv { running .color with line := l, sub := 0 }) ∧
    ([239#16, 240#16, 241#16, 242#16, 243#16, 249#16].map fun l => State.verticalState { running .color with line := l }) =
      [some .activePicture, some .frontPorch, some .frontPorch, some .vsyncPulse, some .backPorch, some .backPorch] ∧
    State.reset.horizontalState = .awaitingHorizontalLock ∧ (running .color).horizontalState = .synced := by
  refine ⟨rfl, rfl, rfl, by decide +kernel, by decide +kernel, by decide +kernel, by decide +kernel, rfl, rfl, ?_,
    by decide +kernel, rfl, rfl⟩
  intro l hl
  have hl : l.toNat < 250 := by fin_cases hl <;> decide
  exact running_vgaInv .color l 0 hl (by decide) (.inr rfl)

theorem witness_HeldWaitEndsAfterEvent : let s := { (running .color).withEvent .lt with
      line := 239, sub := 1, waiting := some .vblank }
    s.nextEvent = some .lt ∧ s.waiting = some .vblank ∧ ∃ t, step s = .next t :=
  ⟨by decide +kernel, rfl, ⟨_, rfl⟩⟩

theorem witness_WaitActiveWhileOffNeverEnds : let s := { State.reset with waiting := some .active }
    s.LifeInv ∧ s.life = .off ∧ s.waiting = some .active :=
  ⟨⟨fun _ => ⟨rfl, rfl, rfl, rfl, rfl, rfl, rfl, rfl, rfl, rfl, rfl, rfl, rfl⟩, by simp [State.reset]⟩, rfl, rfl⟩

/-- Solver results at both ends of the widths, with a Color one; a search that finds nothing; and finds that fail on the
colour scale (SV16) and, from a margin of 560 on, on the room for the pulse. -/
theorem witness_SolverResultsAreValid : (solve 0 8 1 true fastWindow).isSome = true ∧
    (solve 559 800 1 false wideWindow).isSome = true ∧ (solve 0 320 240 true defaultWindow).isSome = true ∧
    search 8 8 defaultWindow = none ∧ ((search 640 480 defaultWindow).map fun c => decide (c.xscale < 6)) = some true ∧
    search 320 240 defaultWindow = some ⟨7, 0, 2⟩ ∧
    2 * (400 * 7 / 2) < 2 * (max (328 * 7) (320 * 7 + 560) / 2) + 2 ∧
    ¬2 * (400 * 7 / 2) < 2 * (max (328 * 7) (320 * 7 + 559) / 2) + 2 := by
  decide +kernel
theorem witness_SolverResultsFitRegisters : ∃ tim, solve 0 8 1 true fastWindow = some tim ∧ 8 ≤ 8 ∧ 8 ≤ 800 ∧ 1 ≤ 1 :=
  ⟨(solve 0 8 1 true fastWindow).getD Timing.reset, by decide +kernel⟩
/-- A search that finds, one that does not, and combinations at the edges of the space. -/
theorem witness_SolverSearchesTheWholeSpaceInOrder : search 320 240 defaultWindow = some ⟨7, 0, 2⟩ ∧
    search 8 8 defaultWindow = none ∧ accepts 320 240 defaultWindow ⟨7, 0, 2⟩ = true ∧
    accepts 320 240 defaultWindow ⟨16, 49, 8⟩ = false := by decide +kernel

theorem witness_AllocationIsZeroedAndInSram : (∃ t, State.reset.allocate .color 320 240 = some t) ∧
    (∃ t, State.reset.allocate .mono 8 1 = some t) ∧ State.reset.allocate .color 320 380 = none ∧
    (running .mono).mode = .mono ∧ (running .mono).fb = bufferOf .mono 320 240 (running .mono).fb.base ∧
    (running .mono).fb.size ≤ 98304 ∧ (running .color).mode ≠ .mono := by
  refine ⟨⟨_, if_pos (decide_eq_true (le_trans ?_ fbCapacityBytes_bounds.1))⟩,
    ⟨_, if_pos (decide_eq_true (le_trans ?_ fbCapacityBytes_bounds.1))⟩,
    if_neg ?_, rfl, rfl, by decide +kernel, by decide +kernel⟩
  · decide
  · decide
  · simp only [fitsCapacity, decide_eq_true_eq, not_le]
    exact lt_of_le_of_lt fbCapacityBytes_bounds.2 (by decide)

/-- The last pixel of each mode in bounds, the first out of bounds in each direction, and no buffer at all. -/
theorem witness_SetPixelWritesOnePixel : (running .mono).mem.wf ∧ (running .color).mem.wf ∧ State.reset.mem.wf ∧
    ((running .mono).withArgs 319 239 1).inBounds 319 239 = true ∧ (running .color).inBounds 319 239 = true ∧
    (running .color).inBounds 320 0 = false ∧ (running .color).inBounds 0 240 = false ∧
    State.reset.fb.valid = false ∧ (running .mono).dma.busy = false := by
  refine ⟨?_, ?_, ?_, by decide +kernel⟩ <;> exact ⟨List.Pairwise.nil, by simp [running, State.reset]⟩
theorem witness_GetPixelReadsThePixel : (running .mono).inBounds 319 239 = true ∧ (running .pal).inBounds 0 0 = true ∧
    (running .mono).inBounds 320 0 = false := by decide +kernel
theorem witness_PixelRoundTrip : ((running .mono).withArgs 319 239 3).MemoryInv ∧ (running .mono).fb.valid = true ∧
    ((running .mono).withArgs 319 239 3).inBounds 319 239 = true ∧
    ∃ t, exec .setPixel ((running .mono).withArgs 319 239 3) = .next t :=
  ⟨⟨List.Pairwise.nil, by simp [running, State.reset, State.withArgs]⟩, rfl, by decide +kernel, exec_next _ _⟩
theorem witness_SetPixelTouchesNoOtherPixel : ((running .mono).withArgs 319 239 1).MemoryInv ∧
    (running .mono).mode ≠ .off ∧ (running .mono).fb = bufferOf .mono 320 240 (running .mono).fb.base ∧
    (running .mono).fb.size ≤ 98304 ∧ (running .mono).guardByte 0x20001028#32 = true ∧
    ∃ t, exec .setPixel ((running .mono).withArgs 319 239 1) = .next t :=
  ⟨⟨List.Pairwise.nil, by simp [running, State.reset, State.withArgs]⟩, by decide, rfl, by decide +kernel,
    by decide +kernel, exec_next _ _⟩
theorem witness_MemoryIsLittleEndian : Memory.wf [(0x20000000, 1#8)] ∧ 0 ≤ 4 ∧ 4 ≤ 4 := by decide
/-- The state with a transfer of two samples of a slot in flight. -/
def State.slotInFlight (s : State) : State :=
  { s with dma := { s.dma with busy := true, flight := { s.dma.flight with fromSlot := true, units := [1, 2] } } }
/-- Of two addresses that are 256 bytes or more apart, one lies outside the register window, wherever that is. -/
theorem outsideWindow (a b : Addr) (h : 256 ≤ (a - b).toNat ∧ 256 ≤ (b - a).toNat) :
    256 ≤ (a - Config.blockBase).toNat ∨ 256 ≤ (b - Config.blockBase).toNat := by
  generalize Config.blockBase = c
  bv_omega

/-- The first or the last word of SRAM, a misaligned address in one of them, and guard bytes at both ends of rows. -/
theorem witness_HostWriteIsPerformedWithGuard : State.reset.mem.wf ∧
    (∃ a ∈ [0x20000000#32, 0x20017FFC#32], inSram a = true ∧ 256 ≤ (a - Config.blockBase).toNat ∧
      a.toNat % Width.word.bytes = 0) ∧
    (∃ a ∈ [0x20000001#32, 0x20017FFF#32], inSram a = true ∧ 256 ≤ (a - Config.blockBase).toNat ∧
      a.toNat % Width.half.bytes ≠ 0) ∧
    (∃ a ∈ [0x20001028#32, 0x200011B7#32], inSram a = true ∧ 256 ≤ (a - Config.blockBase).toNat ∧
      a.toNat % Width.byte.bytes = 0 ∧ (running .mono).guardByte a = true) ∧
    (running .mono).guardByte 0x2000102C#32 = false := by
  refine ⟨⟨List.Pairwise.nil, by simp [State.reset]⟩, ?_, ?_, ?_, by decide +kernel⟩
  · rcases outsideWindow 0x20000000#32 0x20017FFC#32 (by decide) with h | h
    · exact ⟨_, .head _, by decide, h, by decide⟩
    · exact ⟨_, .tail _ (.head _), by decide, h, by decide⟩
  · rcases outsideWindow 0x20000001#32 0x20017FFF#32 (by decide) with h | h
    · exact ⟨_, .head _, by decide, h, by decide⟩
    · exact ⟨_, .tail _ (.head _), by decide, h, by decide⟩
  · rcases outsideWindow 0x20001028#32 0x200011B7#32 (by decide) with h | h
    · exact ⟨_, .head _, by decide, h, by decide, by decide +kernel⟩
    · exact ⟨_, .tail _ (.head _), by decide, h, by decide, by decide +kernel⟩

/-- The alias words of the first bit of SRAM and of its last one: one of them lies outside the register window. -/
theorem witness_AliasWordIsOneBit : State.reset.MemoryInv ∧ inSram 0x20000000#32 = true ∧ inSram 0x20017FFF#32 = true ∧
    0 < 8 ∧ 7 < 8 ∧
    (256 ≤ (0x22000000#32 + (0x20000000#32 - 0x20000000#32) * 32#32 + BitVec.ofNat 32 (4 * 0)
        - Config.blockBase).toNat ∨
      256 ≤ (0x22000000#32 + (0x20017FFF#32 - 0x20000000#32) * 32#32 + BitVec.ofNat 32 (4 * 7)
        - Config.blockBase).toNat) ∧
    (running .mono).guardByte 0x20001028#32 = true ∧ (running .mono).guardByte 0x2000102C#32 = false :=
  ⟨⟨List.Pairwise.nil, by simp [State.reset]⟩, by decide, by decide, by decide, by decide,
    outsideWindow _ _ (by decide), by decide +kernel, by decide +kernel⟩
theorem witness_OnlyTheHostWritesMemory : let s := ((running .color).withArgs 0 0 1).withCommand 5#32
    ∃ t, step s = .next t ∧ t.mem ≠ s.mem := ⟨_, rfl, by decide +kernel⟩
theorem witness_MemoryStaysCanonical : State.reset.MemoryInv ∧ ∃ t, step State.reset = .next t :=
  ⟨⟨List.Pairwise.nil, by simp [State.reset]⟩, ⟨_, rfl⟩⟩

/-- Every mode that arms. -/
theorem witness_ArmConfiguresThePeripherals : Mode.mono ≠ .off ∧ Mode.color ≠ .off ∧ Mode.ntsc ≠ .off ∧
    Mode.pal ≠ .off ∧ 2 ≤ (running .color).tim.htotalClk := by decide
/-- Ticks in which the PWM wraps: with HC enabled and not pending, enabled and pending (OVERRUN), and disabled; and a tick
while Off. -/
theorem witness_TimersCountAndRaise :
    let s := { running .color with pwm := ⟨true, 2799, 2800, 336, true⟩, sleep := true }
    let pending := { s with nvic := s.nvic.setPend .hc true }
    let disabled := { s with nvic := { s.nvic with hc := ⟨false, false, 1⟩ } }
    0 < s.pwm.period ∧ 0 < s.lt.period ∧ s.tick.pwm.cnt = 0 ∧ s.tick.sleep = false ∧ s.tick.fault = 0 ∧
      pending.tick.fault = 0b000100#6 ∧ disabled.tick.sleep = true ∧ State.reset.pwm.en = false ∧
      State.reset.lt.en = false := by decide +kernel
theorem witness_SyncPinLevels : (running .color).gpio.hsync = .pwm ∧ State.reset.gpio.hsync = .hiZ ∧
    (running .color).gpio.vsync = .out ∧ State.reset.gpio.vsync = .hiZ := by decide +kernel
/-- Samples on both ends of the lock window and next to it. -/
theorem witness_LockStepLocksInItsWindow : let s := { running .color with synced := false }
    s.synced = false ∧ 0 < s.pwm.period ∧ ((504 : Int) - s.tim.lockOffClk) % s.pwm.period = 0 ∧
      ((505 : Int) - s.tim.lockOffClk) % s.pwm.period = 1 ∧ ((506 : Int) - s.tim.lockOffClk) % s.pwm.period = 2 ∧
      ((503 : Int) - s.tim.lockOffClk) % s.pwm.period = 2799 := by decide +kernel
/-- Before and after the lock; the smallest period, and first samples on both sides of the window. -/
theorem witness_SampleWalkReachesTheLockWindow : 2 ≤ (running .color).pwm.period ∧ (running .color).pwm.en = true ∧
    (running .color).lt.en = true ∧ (running .color).pwm.cnt < 2800 ∧ (running .color).lt.cnt = 0 ∧
    (running .color).lt.period = 2800 ∧ 0 + 1 < 2 ∧ 504 + 1 < 2800 ∧ 504 < 2800 ∧ 503 < 2800 ∧ 2799 < 2800 := by
  decide +kernel

/-- Armed and not, the last repeat and not, the end of the frame. -/
theorem witness_VgaLineIsOnePhysicalLine : State.VgaInv { running .mono with line := 0, sub := 0 } ∧
    State.VgaInv { running .color with line := 249, sub := 1 } ∧ (running .mono).synced = true ∧
    (running .mono).armed = true ∧ State.armed { running .color with armed := false } = false ∧
    (1#4).toNat + 1 = (running .mono).tim.yscale ∧ (249#16).toNat + 1 = (running .mono).tim.vtotal :=
  ⟨running_vgaInv .mono 0 0 (by decide) (by decide) (.inl rfl),
    running_vgaInv .color 249 1 (by decide) (by decide) (.inr rfl), rfl, rfl, rfl, by decide, by decide⟩
theorem witness_FrameIsVtotalTimesYscaleLines : (running .color).VgaInv ∧ (running .color).synced = true ∧
    1 ≤ (running .color).fb.height ∧ (running .color).line = 0 ∧ (running .color).sub = 0 ∧
    (running .color).armed = true :=
  ⟨running_vgaInv .color 0 0 (by decide) (by decide) (.inr rfl), rfl, by decide, rfl, rfl, rfl⟩
theorem witness_LineDoublingResendsTheLine : (running .mono).VgaInv ∧ (running .mono).armed = true ∧
    (running .mono).dma.busy = false ∧ (running .mono).sub.toNat + 1 < (running .mono).tim.yscale ∧
    State.VgaInv { running .mono with line := 0, sub := 1 } ∧ (1#4).toNat + 1 = (running .mono).tim.yscale ∧
    (0#16).toNat + 1 ≠ (running .mono).tim.vtotal :=
  ⟨running_vgaInv .mono 0 0 (by decide) (by decide) (.inl rfl), rfl, rfl, by decide,
    running_vgaInv .mono 0 1 (by decide) (by decide) (.inl rfl), by decide, by decide⟩
theorem witness_HorizontalCompareRewindsAndSleeps : State.ldpend { running .color with ldpend := true } = true ∧
    (running .color).ldpend = false ∧ (running .color).inFlight.dma.busy = true := ⟨rfl, rfl, rfl⟩
/-- The completion tick of a transfer of 2464 ticks, the tick before it, and an idle channel. -/
theorem witness_TransferCompletesAfterItsTime : let s := (running .mono).inFlight.atAge
    (s 2463).dma.busy = true ∧ (s 2463).spi.bits = 16 ∧ (s 2463).completes = true ∧ (s 2462).completes = false ∧
    (running .color).dma.busy = false := by
  decide +kernel
/-- In Mono the first and the last tick of the last bit of the line on the SPI; in Color those of the last byte on the
port. -/
theorem witness_TransferUnitsAppearOnThePins :
    let m := fun age => { (running .mono).inFlight.atAge age with gpio := ⟨.pwm, .out, true, .spi, .hiZ⟩ }
    let c := (running .color).inFlight.atAge
    (m 0).dma.busy = true ∧ (m 0).dma.dst = .spi ∧ (m 0).gpio.data = .spi ∧ (m 0).spi.bits = 16 ∧
    (m 2457).sentUnits[21]? = some 0 ∧ (m 2463).sentUnits[21]? = some 0 ∧
    (m 2457).dma.flight.lat + (16 * 21 + 15) * (m 0).spi.div ≤ (m 2457).dma.flight.age ∧
    (m 2463).dma.flight.age < (m 2463).dma.flight.lat + (16 * 21 + 15 + 1) * (m 0).spi.div ∧
    (c 0).dma.busy = true ∧ (c 0).dma.dst = .port ∧ (c 0).gpio.port = .port ∧
    (c 2233).sentUnits[319]? = some 0 ∧ (c 2239).sentUnits[319]? = some 0 ∧
    (c 2233).dma.flight.lat + 319 * (c 0).port.div ≤ (c 2233).dma.flight.age ∧
    (c 2239).dma.flight.age < (c 2239).dma.flight.lat + (319 + 1) * (c 0).port.div ∧
    (c 2233).inbox = [] ∧ (afterStep (c 2238)).dma.busy = true ∧ (afterStep (c 2238)).draws = (c 2238).draws ∧
    (afterStep (c 2239)).dma.busy = false ∧ (afterStep (c 2239)).dma.done = true := by decide +kernel
theorem witness_RacingUnitIsOldOrNew : (running .mono).inFlight.dma.busy = true ∧
    (running .mono).inFlight.dma.flight.fromSlot = false ∧ (running .mono).inFlight.dma.unit = 2 ∧
    (running .color).inFlight.dma.unit = 1 ∧ (running .mono).inFlight.dma.flight.units.length = 22 ∧
    (running .ntsc).slotInFlight.dma.flight.fromSlot = true ∧ (running .ntsc).slotInFlight.dma.unit = 1 ∧
    (∃ t, exec .setPixel (running .mono).inFlight = .next t) ∧
    (∃ a ∈ [0x20001000#32, 0x20001200#32], 256 ≤ (a - Config.blockBase).toNat ∧
      ∃ t, hostAccess (.busWrite a .word 1) (running .mono).inFlight = .next t) ∧
    ∃ a ∈ [0x22020000#32, 0x22021000#32], 256 ≤ (a - Config.blockBase).toNat ∧
      ∃ t, hostAccess (.busWrite a .word 1) (running .mono).inFlight = .next t := by
  have write_next : ∀ a : Addr, 256 ≤ (a - Config.blockBase).toNat → aligned a .word = true →
      inAlias a = true ∨ inSram a = true →
      ∃ t, hostAccess (.busWrite a .word 1) (running .mono).inFlight = .next t := by
    intro a h ha hm
    have hw : windowOffset a = none := if_neg (by omega)
    simp only [hostAccess, hw, State.busWriteMemory, ha]
    rcases hm with hm | hm
    · exact ⟨_, by rw [hm]; rfl⟩
    · cases hi : inAlias a
      · exact ⟨_, by rw [hm]; rfl⟩
      · exact ⟨_, rfl⟩
  refine ⟨rfl, rfl, rfl, rfl, by decide +kernel, rfl, rfl, exec_next _ _, ?_, ?_⟩
  · rcases outsideWindow 0x20001000#32 0x20001200#32 (by decide) with h | h
    · exact ⟨_, .head _, h, write_next _ h (by decide) (by decide)⟩
    · exact ⟨_, .tail _ (.head _), h, write_next _ h (by decide) (by decide)⟩
  · rcases outsideWindow 0x22020000#32 0x22021000#32 (by decide) with h | h
    · exact ⟨_, .head _, h, write_next _ h (by decide) (by decide)⟩
    · exact ⟨_, .tail _ (.head _), h, write_next _ h (by decide) (by decide)⟩
theorem witness_ChromaPhaseIsPeriodic : 0 < (Config.composite .pal).cycle ∧ 29 < (Config.composite .pal).cycle := by
  decide
theorem witness_RowWalkIsModular : let p := { Config.composite .pal with pstride := 30 }
    1 ≤ p.pstride ∧ p.pstride ≤ p.cycle ∧ 319 < 320 := by decide

theorem composite_inv (std : Standard) (line : Nat) (h : line < Config.cTotal std) :
    (composite std line).CompositeInv std := by
  have h16 : line < 2 ^ 16 := lt_of_lt_of_le h (by cases std <;> decide)
  refine ⟨rfl, ?_, ?_, List.length_replicate .., List.length_replicate .., rfl, rfl, rfl, Nat.zero_lt_two, nofun⟩
  · show (BitVec.ofNat 16 line).toNat < _
    rw [BitVec.toNat_ofNat, Nat.mod_eq_of_lt h16]
    exact h
  · show 0 < _
    cases std <;> decide

/-- An active line of each standard, a line outside the picture, and the last line of a frame. -/
theorem witness_CompositeLineFillsItsSlot : (composite .ntsc 261).CompositeInv .ntsc ∧
    (composite .pal (Config.cActStart .pal)).CompositeInv .pal ∧ (composite .ntsc 0).mode = modeOfStandard .ntsc ∧
    (composite .ntsc 0).synced = true ∧ (composite .ntsc (Config.cActStart .ntsc)).CompositeInv .ntsc ∧
    (∃ n, n < Config.cTotal .ntsc ∧
      ¬(Config.cActStart .ntsc ≤ n ∧ n < Config.cActStart .ntsc + Config.cHeight .ntsc)) := by
  have h : ∀ std, Config.cActStart std + Config.cHeight std ≤ Config.cTotal std := by
    intro std
    have h1 := Nat.mod_lt (Config.cActStartOpen std) (show 0 < Config.cTotal std - Config.cHeight std + 1 by omega)
    have h2 : Config.cHeight std ≤ Config.cTotal std := by cases std <;> decide
    unfold Config.cActStart
    omega
  have h0 : ∀ std, 0 < Config.cHeight std := by intro std; cases std <;> decide
  have a := h .ntsc
  have b := h .pal
  have c := h0 .ntsc
  have d := h0 .pal
  refine ⟨composite_inv _ _ (by decide), composite_inv _ _ (by omega), rfl, rfl, composite_inv _ _ (by omega), ?_⟩
  have e : Config.cHeight .ntsc = 200 := rfl
  have f : Config.cTotal .ntsc = 262 := rfl
  by_cases hs : Config.cActStart .ntsc = 0
  · exact ⟨200, by omega, by omega⟩
  · exact ⟨0, by omega, by omega⟩

theorem witness_LifecycleInvariantIsKept : (running .color).LifeInv ∧ ∃ t, step (running .color) = .next t :=
  ⟨running_lifeInv _ (.inr rfl), ⟨_, rfl⟩⟩
theorem witness_RasterInvariantIsKept : (running .mono).LifeInv ∧ (running .mono).RasterInv ∧
    (∃ t, step ((running .mono).withEvent .lt) = .next t) ∧ (composite .ntsc 0).RasterInv ∧
    (composite .ntsc 0).mode = .ntsc :=
  ⟨running_lifeInv _ (.inl rfl),
    ⟨fun _ => running_vgaInv .mono 0 0 (by decide) (by decide) (.inl rfl), by simp [running, Mode.standard]⟩,
    ⟨_, rfl⟩, ⟨nofun, fun std h => by cases std <;> first | exact composite_inv _ _ (by decide) | cases h⟩, rfl⟩

end Sys2Proof.Machine
end

/-! ### The STATE register field by field (10_state.md R19). -/

namespace Sys2Proof.Machine

/-- The one-bit fields of STATE, from bit 3 upwards (R19). -/
def State.stateFlags (s : State) : List Bool :=
  [s.life == .running, s.synced, s.armed, s.ldpend, s.vsync, s.dma.busy, s.dma.done, s.gpio.data == .spi]

/-- Bits 2 to 0 of STATE are the bits of the mode code (R19). -/
theorem State.stateRegister_getLsbD_mode (s : State) {k : Nat} (hk : k < 3) :
    s.stateRegister.getLsbD k = s.mode.code.getLsbD k := by
  change BitVec.getLsbD (w := 29 + 3) (_ ++ s.mode.code) k = _
  simp [↓BitVec.getLsbD_append, hk]

/-- Above the MODE field STATE is its flags in order, and 0 above the last of them (R19). The width is written out as
the sum of the widths of the fields, for the rule of appended words to see it. -/
theorem State.stateRegister_getLsbD_flag (s : State) (i : Nat) :
    s.stateRegister.getLsbD (i + 3) = s.stateFlags.getD i false := by
  change BitVec.getLsbD (w := 21 + 1 + 1 + 1 + 1 + 1 + 1 + 1 + 1 + 3) (_ ++ _) (i + 3) = _
  match i with
  | 0 | 1 | 2 | 3 | 4 | 5 | 6 | 7 => simp [↓BitVec.getLsbD_append, State.stateFlags]
  | i + 8 => simp [↓BitVec.getLsbD_append, State.stateFlags]

/-- The MODE field of STATE is the code of the mode (R19). -/
@[simp] theorem State.stateRegister_modeField (s : State) : s.stateRegister.extractLsb' 0 3 = s.mode.code :=
  BitVec.eq_of_getLsbD_eq fun k hk => by
    rw [BitVec.getLsbD_extractLsb', Nat.zero_add, s.stateRegister_getLsbD_mode hk]
    simp [hk]

/-- Settles O13: the MODE field by cases on the mode, the other fields as the flags above it. -/
theorem stateRegisterFields : Obligations.StateRegisterFields := by
  unfold Obligations.StateRegisterFields
  refine ⟨rfl, fun s => ?_⟩
  have flag := s.stateRegister_getLsbD_flag
  refine ⟨?mode, ?running, flag 1, flag 2, flag 3, flag 4, flag 5, flag 6, ?pinSpi, ?above⟩
  case mode =>
    rw [s.stateRegister_modeField]
    cases s.mode <;> rfl
  case running =>
    rw [flag 0]
    exact beq_iff_eq
  case pinSpi =>
    rw [flag 7]
    exact beq_iff_eq
  case above =>
    intro k hk
    obtain ⟨i, rfl⟩ := Nat.exists_eq_add_of_le' hk
    exact flag (i + 8)

end Sys2Proof.Machine

/-! ### Host memory is little-endian (20_memory.md R44). -/

namespace Sys2Proof.Machine

/-- `MemRead` is the little-endian sum of its bytes (R44). The step moves the base: byte `k + 1` from `a` is byte `k`
from `a + 1`. -/
theorem Memory.load_eq_sum (m : Memory) (a : Addr) (n : Nat) : m.load a n =
    ((List.range n).map fun k => (m.read (a + BitVec.ofNat 32 k).toNat).toNat * 2 ^ (8 * k)).sum := by
  induction n generalizing a with
  | zero => rfl
  | succ n ih =>
    have hterm (k : Nat) : (m.read (a + BitVec.ofNat 32 (k + 1)).toNat).toNat * 2 ^ (8 * (k + 1)) =
        256 * ((m.read (a + 1 + BitVec.ofNat 32 k).toNat).toNat * 2 ^ (8 * k)) := by
      rw [addr_add_succ, Nat.mul_add, Nat.pow_add, ← Nat.mul_assoc, Nat.mul_comm]
    rw [Memory.load, ih, ← List.sum_map_mul_left, List.range_succ_eq_map, List.map_cons, List.map_map, List.sum_cons]
    simp only [Function.comp_def, Nat.succ_eq_add_one, hterm, Nat.mul_zero, Nat.pow_zero, Nat.mul_one,
      BitVec.ofNat_eq_ofNat, BitVec.add_zero]

/-- The offset of `a + k` from `a` is `k`, for `k` below 2^32: addresses wrap (R44). -/
theorem addr_add_sub_toNat (a : Addr) {k : Nat} (hk : k < 2 ^ 32) : (a + BitVec.ofNat 32 k - a).toNat = k := by
  rw [BitVec.add_comm, BitVec.add_sub_cancel, BitVec.toNat_ofNat, Nat.mod_eq_of_lt hk]

/-- Every address is `a` plus its offset from `a`. -/
theorem addr_add_offset (a x : Addr) : a + BitVec.ofNat 32 (x - a).toNat = x := by
  rw [BitVec.ofNat_toNat, BitVec.setWidth_eq, BitVec.add_comm, BitVec.sub_add_cancel]

/-- Settles O36: the load by its sum, the bytes after a store by `Memory.read_store`, with each address named by its
offset from the place of the store. -/
theorem memoryIsLittleEndian : Obligations.MemoryIsLittleEndian := by
  unfold Obligations.MemoryIsLittleEndian
  intro m a n v hm hn
  have hlen : n < 2 ^ 32 := by omega
  refine ⟨m.load_eq_sum a n, Memory.load_store hm a n v hlen, fun k hk => ?stored, fun x hx => ?kept⟩
  case stored =>
    rw [Memory.read_store hm a n v hlen, addr_add_sub_toNat a (hk.trans hlen), if_pos hk]
    exact BitVec.toNat_ofNat _ _
  case kept =>
    have hout : ¬(x - a).toNat < n := fun hin => hx _ hin (addr_add_offset a x).symm
    rw [Memory.read_store hm a n v hlen, if_neg hout]

end Sys2Proof.Machine

/-! ### The words of a command (30_encoding.md R60, R62, R64). -/

namespace Sys2Proof.Machine

/-! The fields of a word as numbers (R60), and the decoder by its operations. -/

theorem rsvField_toNat (c : Word) : (rsvField c).toNat = c.toNat / 65536 := by
  simp only [rsvField, BitVec.extractLsb'_toNat, Nat.shiftRight_eq_div_pow]
  exact Nat.mod_eq_of_lt (by have := c.isLt; omega)

theorem selField_toNat (c : Word) : (selField c).toNat = c.toNat / 256 % 256 := by
  simp [selField, Nat.shiftRight_eq_div_pow]

theorem opField_toNat (c : Word) : (opField c).toNat = c.toNat % 256 := by
  simp [opField]

theorem requireNoSel_ok_iff {sel : BitVec 8} {i j : Instr} : requireNoSel sel i = .ok j ↔ sel = 0 ∧ i = j := by
  unfold requireNoSel
  split <;> simp_all

/-- OP and SEL decode to an operation exactly if they are its own, and its SEL fits the field (R62, R64). -/
theorem decodeOp_ok_iff {op sel : BitVec 8} {i : Instr} :
    decodeOp op sel = .ok i ↔ op = opcodeOf i ∧ sel = selOf i ∧ i.wellFormed = true := by
  constructor
  case mp =>
    intro h
    unfold decodeOp at h
    split at h
    case h_1 | h_2 =>
      cases h
      exact ⟨rfl, by simp [selOf], decide_eq_true sel.isLt⟩
    case h_12 => cases h
    all_goals
      obtain ⟨rfl, rfl⟩ := requireNoSel_ok_iff.1 h
      exact ⟨rfl, rfl, rfl⟩
  case mpr =>
    rintro ⟨rfl, rfl, hwf⟩
    cases i
    case begin sel | beginComposite sel =>
      have hsel : sel < 256 := of_decide_eq_true hwf
      simp [decodeOp, opcodeOf, selOf, Nat.mod_eq_of_lt hsel]
    all_goals rfl

theorem decode_ok_iff {c : Word} {i : Instr} :
    decode c = .ok i ↔ rsvField c = 0 ∧ decodeOp (opField c) (selField c) = .ok i := by
  unfold decode
  split <;> simp_all

/-- CMD takes what the one decoder reads, if the host may issue it (R59, R64). -/
theorem decodeCmd_ok_iff_decode {c : Word} {i : Instr} :
    decodeCmd c = .ok i ↔ decode c = .ok i ∧ i.hostIssuable = true :=
  ⟨decodeCmd_ok, fun ⟨hdecode, hhost⟩ => by rw [decodeCmd, hdecode]; exact if_pos hhost⟩

/-- A word written to CMD names an operation exactly if its three fields, as numbers, are those of the operation, and
the operation has an encoding that the host may issue (R60, R62, R64). -/
theorem decodeCmd_ok_iff {c : Word} {i : Instr} :
    decodeCmd c = .ok i ↔ c.toNat / 65536 = 0 ∧ c.toNat % 256 = (opcodeOf i).toNat ∧
      c.toNat / 256 % 256 = (selOf i).toNat ∧ i.wellFormed = true ∧ i.hostIssuable = true := by
  rw [decodeCmd_ok_iff_decode, decode_ok_iff, decodeOp_ok_iff, BitVec.toNat_eq, BitVec.toNat_eq, BitVec.toNat_eq,
    rsvField_toNat, selField_toNat, opField_toNat, show (0 : BitVec 16).toNat = 0 from rfl]
  tauto

/-- The OP of a command lies from 1 to 8 (R62). -/
theorem opcodeOf_bounds_of_hostIssuable {i : Instr} (h : i.hostIssuable = true) :
    1 ≤ (opcodeOf i).toNat ∧ (opcodeOf i).toNat ≤ 8 := by
  cases i
  case evLt | evHc | evDmac => cases h
  all_goals simp [opcodeOf]

/-- Only BEGIN and BEGIN_COMPOSITE have a SEL other than 0 (R60, R62). -/
theorem selOf_eq_zero_of_three_le {i : Instr} (h : 3 ≤ (opcodeOf i).toNat) : selOf i = 0 := by
  cases i
  case begin | beginComposite => exact absurd h (by simp [opcodeOf])
  all_goals rfl

/-- The legal words of CMD, by their fields (R64); `decodeCmd_error_iff` shows that all others are ILLEGAL. -/
def NamesCommand (c : Word) : Prop :=
  c.toNat / 65536 = 0 ∧ 1 ≤ c.toNat % 256 ∧ c.toNat % 256 ≤ 8 ∧ (3 ≤ c.toNat % 256 → c.toNat / 256 % 256 = 0)

theorem namesCommand_of_decodeCmd_ok {c : Word} {i : Instr} (h : decodeCmd c = .ok i) : NamesCommand c := by
  obtain ⟨hrsv, hop, hsel, -, hhost⟩ := decodeCmd_ok_iff.1 h
  obtain ⟨hlow, hhigh⟩ := opcodeOf_bounds_of_hostIssuable hhost
  refine ⟨hrsv, hop ▸ hlow, hop ▸ hhigh, fun h3 => ?_⟩
  rw [hsel, selOf_eq_zero_of_three_le (hop ▸ h3)]
  rfl

section Table
variable {c : Word} (hrsv : c.toNat / 65536 = 0)
include hrsv

/-- BEGIN takes any SEL (R64, R65). -/
theorem decodeCmd_begin (hop : c.toNat % 256 = 1) : decodeCmd c = .ok (.begin (c.toNat / 256 % 256)) :=
  decodeCmd_ok_iff.2 ⟨hrsv, hop, by simp [selOf], by simp [Instr.wellFormed, Nat.mod_lt], rfl⟩

/-- BEGIN_COMPOSITE takes any SEL (R64, R65). -/
theorem decodeCmd_beginComposite (hop : c.toNat % 256 = 2) :
    decodeCmd c = .ok (.beginComposite (c.toNat / 256 % 256)) :=
  decodeCmd_ok_iff.2 ⟨hrsv, hop, by simp [selOf], by simp [Instr.wellFormed, Nat.mod_lt], rfl⟩

/-- The other six commands take SEL = 0 alone (R64). -/
theorem decodeCmd_of_noSel (hsel : c.toNat / 256 % 256 = 0) :
    (c.toNat % 256 = 3 → decodeCmd c = .ok .endMode) ∧ (c.toNat % 256 = 4 → decodeCmd c = .ok .setMonitorRange) ∧
    (c.toNat % 256 = 5 → decodeCmd c = .ok .setPixel) ∧ (c.toNat % 256 = 6 → decodeCmd c = .ok .getPixel) ∧
    (c.toNat % 256 = 7 → decodeCmd c = .ok .waitVblank) ∧ (c.toNat % 256 = 8 → decodeCmd c = .ok .waitActive) := by
  refine ⟨?_, ?_, ?_, ?_, ?_, ?_⟩
  all_goals exact fun hop => decodeCmd_ok_iff.2 ⟨hrsv, hop, hsel, rfl, rfl⟩

end Table

/-- Every word that names a command is legal on CMD: one case for each OP (R64). -/
theorem decodeCmd_ok_of_namesCommand {c : Word} (h : NamesCommand c) : ∃ i, decodeCmd c = .ok i := by
  obtain ⟨hrsv, hlow, hhigh, hsel⟩ := h
  by_cases h3 : 3 ≤ c.toNat % 256
  · obtain ⟨hend, hrange, hset, hget, hvblank, hactive⟩ := decodeCmd_of_noSel hrsv (hsel h3)
    have hcases : c.toNat % 256 = 3 ∨ c.toNat % 256 = 4 ∨ c.toNat % 256 = 5 ∨ c.toNat % 256 = 6 ∨
        c.toNat % 256 = 7 ∨ c.toNat % 256 = 8 := by omega
    rcases hcases with hop | hop | hop | hop | hop | hop
    exacts [⟨_, hend hop⟩, ⟨_, hrange hop⟩, ⟨_, hset hop⟩, ⟨_, hget hop⟩, ⟨_, hvblank hop⟩, ⟨_, hactive hop⟩]
  · have hcases : c.toNat % 256 = 1 ∨ c.toNat % 256 = 2 := by omega
    rcases hcases with hop | hop
    exacts [⟨_, decodeCmd_begin hrsv hop⟩, ⟨_, decodeCmd_beginComposite hrsv hop⟩]

/-- A word is ILLEGAL on CMD exactly if it names no command (R64). -/
theorem decodeCmd_error_iff {c : Word} : (∃ e, decodeCmd c = .error e) ↔ ¬NamesCommand c := by
  constructor
  case mp =>
    rintro ⟨e, he⟩ hc
    obtain ⟨i, hi⟩ := decodeCmd_ok_of_namesCommand hc
    exact nomatch he.symm.trans hi
  case mpr =>
    intro hc
    cases h : decodeCmd c with
    | error e => exact ⟨e, rfl⟩
    | ok i => exact absurd (namesCommand_of_decodeCmd_ok h) hc

/-- An ILLEGAL word changes STATUS alone (R64). -/
theorem issueCommand_of_error {c : Word} {e : DecodeError} (h : decodeCmd c = .error e) (s : State) :
    issueCommand c s = .next (s.setStatus statusIllegal) := by
  rw [issueCommand, h]

/-- Settles O4: the legal words from the characterisation of `decodeCmd` by the fields, the ILLEGAL ones as the
words that name no command. -/
theorem commandWordsDecodeOrOnlySetStatus : Obligations.CommandWordsDecodeOrOnlySetStatus := by
  unfold Obligations.CommandWordsDecodeOrOnlySetStatus
  intro c op sel
  refine ⟨fun hrsv => ⟨decodeCmd_begin hrsv, decodeCmd_beginComposite hrsv, decodeCmd_of_noSel hrsv⟩, ?illegal, ?status⟩
  case illegal =>
    rw [decodeCmd_error_iff, NamesCommand]
    omega
  case status =>
    rintro s ⟨e, he⟩
    exact issueCommand_of_error he s

end Sys2Proof.Machine

/-! ### The search for a timing takes the first combination of an ordered space (40_modeline.md R74 to R77). -/

namespace Sys2Proof.Machine

/-- The order of the search: larger horizontal scale, then smaller slack, then smaller vertical scale (R76). -/
def Candidate.TriedBefore (c d : Candidate) : Prop :=
  d.xscale < c.xscale ∨ d.xscale = c.xscale ∧
    (c.slack < d.slack ∨ c.slack = d.slack ∧ c.yscale < d.yscale)

/-- The combinations of the search space in the order of the loops (R76); `search_eq_find?` ties it to `search`. -/
def searchSpace : List Candidate :=
  (downTo Config.xscaleMax Config.xscaleMin).flatMap fun xs =>
    (upTo 0 Config.slackMax).flatMap fun s => (upTo Config.yscaleMin Config.yscaleMax).map fun ys => ⟨xs, s, ys⟩

theorem mem_searchSpace {c : Candidate} : c ∈ searchSpace ↔
    2 ≤ c.xscale ∧ c.xscale ≤ 16 ∧ c.slack ≤ 49 ∧ 1 ≤ c.yscale ∧ c.yscale ≤ 8 := by
  simp only [searchSpace, List.mem_flatMap, List.mem_map, mem_downTo, mem_upTo]
  constructor
  · rintro ⟨xs, ⟨hx2, hx16⟩, s, ⟨-, hs⟩, ys, ⟨hy1, hy8⟩, rfl⟩
    exact ⟨hx2, hx16, hs, hy1, hy8⟩
  · rintro ⟨hx2, hx16, hs, hy1, hy8⟩
    exact ⟨c.xscale, ⟨hx2, hx16⟩, c.slack, ⟨Nat.zero_le _, hs⟩, c.yscale, ⟨hy1, hy8⟩, rfl⟩

theorem upTo_pairwise_lt (a b : Nat) : (upTo a b).Pairwise (· < ·) :=
  List.pairwise_map.2 (List.pairwise_lt_range.imp fun hlt => Nat.add_lt_add_left hlt a)

theorem downTo_pairwise_gt (b a : Nat) : (downTo b a).Pairwise (· > ·) :=
  List.pairwise_reverse.2 (upTo_pairwise_lt a b)

/-- The loops run through the space in the stated order: one step for each loop (R76). -/
theorem searchSpace_pairwise_triedBefore : searchSpace.Pairwise Candidate.TriedBefore := by
  refine List.pairwise_flatMap.2 ⟨fun xs _ => List.pairwise_flatMap.2 ⟨fun s _ => ?yscales, ?slacks⟩, ?xscales⟩
  case yscales =>
    exact List.pairwise_map.2 ((upTo_pairwise_lt _ _).imp fun hlt => .inr ⟨rfl, .inr ⟨rfl, hlt⟩⟩)
  case slacks =>
    refine (upTo_pairwise_lt _ _).imp fun hlt c hc d hd => ?_
    obtain ⟨_, -, rfl⟩ := List.mem_map.1 hc
    obtain ⟨_, -, rfl⟩ := List.mem_map.1 hd
    exact .inr ⟨rfl, .inl hlt⟩
  case xscales =>
    refine (downTo_pairwise_gt _ _).imp fun hgt c hc d hd => ?_
    obtain ⟨_, -, hc⟩ := List.mem_flatMap.1 hc
    obtain ⟨_, -, hd⟩ := List.mem_flatMap.1 hd
    obtain ⟨_, -, rfl⟩ := List.mem_map.1 hc
    obtain ⟨_, -, rfl⟩ := List.mem_map.1 hd
    exact .inl hgt

/-- The loop over the vertical scales is a `find?` over its combinations (R76). -/
theorem searchYscale_eq_find? (w h : Nat) (win : Window) (xs s : Nat) : searchYscale w h win xs s =
    ((upTo Config.yscaleMin Config.yscaleMax).map fun ys => (⟨xs, s, ys⟩ : Candidate)).find? (accepts w h win) := by
  rw [List.find?_eq_findSome?_guard, List.findSome?_map]
  rfl

/-- The test that skips a slack whole loses nothing: no combination of a skipped slack is accepted (R76). -/
theorem searchSlack_eq_findSome? (w h : Nat) (win : Window) (xs : Nat) :
    searchSlack w h win xs = (upTo 0 Config.slackMax).findSome? (searchYscale w h win xs) := by
  refine congrArg (List.findSome? · _) (funext fun s => ite_eq_left_iff.2 fun hskip => ?_)
  refine ((searchYscale_eq_none w h win xs s).2 fun ys _ _ => Bool.eq_false_iff.2 fun hacc => ?_).symm
  have hkeep := accepts_slack hacc
  exact hskip hkeep

/-- The three loops together are one `find?` over the ordered space (R76). -/
theorem search_eq_find? (w h : Nat) (win : Window) : search w h win = searchSpace.find? (accepts w h win) := by
  simp only [search, searchSlack_eq_findSome?, searchSpace, List.find?_flatMap, ← searchYscale_eq_find?]

/-- Nothing that passes is tried before what the search answers. -/
theorem search_first {w h : Nat} {win : Window} {c d : Candidate} (hc : search w h win = some c)
    (hd : d ∈ searchSpace) (hacc : accepts w h win d = true) : d = c ∨ c.TriedBefore d := by
  rw [search_eq_find?, List.find?_eq_some_iff_append] at hc
  obtain ⟨-, before, after, hspace, hfail⟩ := hc
  have hsorted := searchSpace_pairwise_triedBefore
  rw [hspace] at hd hsorted
  obtain ⟨-, hfromFound, -⟩ := List.pairwise_append.1 hsorted
  rcases List.mem_append.1 hd with hbefore | hrest
  · exact absurd hacc (by simpa using hfail d hbefore)
  · rcases List.mem_cons.1 hrest with heq | hafter
    · exact .inl heq
    · exact .inr ((List.pairwise_cons.1 hfromFound).1 d hafter)

/-- The tests of the search, as propositions (R74, R75). -/
theorem accepts_iff {w h : Nat} {win : Window} {c : Candidate} : accepts w h win c = true ↔
    ((hGeometry w).hse < (hGeometry w).htotal ∧ (vGeometry h c.slack).vse < (vGeometry h c.slack).vtotal ∧
      (vGeometry h c.slack).vtotal < 2 ^ 16) ∧
    (win.hmin.toNat * (c.xscale * (hGeometry w).htotal) < Config.fMck ∧
      Config.fMck < win.hmax.toNat * (c.xscale * (hGeometry w).htotal)) ∧
    (win.vmin.toNat * (c.xscale * (hGeometry w).htotal * (vGeometry h c.slack).vtotal * c.yscale) < Config.fMck ∧
      Config.fMck < win.vmax.toNat * (c.xscale * (hGeometry w).htotal * (vGeometry h c.slack).vtotal * c.yscale)) := by
  simp only [accepts, geometricallyValid, lineOk, frameOk, Bool.and_eq_true, decide_eq_true_eq, and_assoc]

/-- Settles O29: the search is a `find?` over a list that holds the space in the stated order. -/
theorem solverSearchesTheWholeSpaceInOrder : Obligations.SolverSearchesTheWholeSpaceInOrder := by
  unfold Obligations.SolverSearchesTheWholeSpaceInOrder
  intro w h win inSpace passes
  have hspace (c : Candidate) : c ∈ searchSpace ↔ inSpace c := mem_searchSpace
  have hpasses (c : Candidate) : accepts w h win c = true ↔ passes c := accepts_iff
  refine ⟨?none, fun c hc => ?some⟩
  case none =>
    simp only [search_eq_find?, List.find?_eq_none, hspace, hpasses]
  case some =>
    obtain ⟨hx2, hx16, hslack, hy1, hy8, hacc⟩ := search_some hc
    refine ⟨⟨hx2, hx16, hslack, hy1, hy8⟩, (hpasses c).1 hacc, fun d hd hpass => ?_⟩
    rcases search_first hc ((hspace d).2 hd) ((hpasses d).2 hpass) with rfl | hx | ⟨hx, hs | ⟨hs, hy⟩⟩
    · exact .inr ⟨rfl, .inr ⟨rfl, le_rfl⟩⟩
    · exact .inl hx
    · exact .inr ⟨hx, .inl hs⟩
    · exact .inr ⟨hx, .inr ⟨hs, hy.le⟩⟩

end Sys2Proof.Machine

/-! ### Host stores and the transfer in flight (20_memory.md R44, R56). -/

namespace Sys2Proof.Machine

theorem State.readsMemory_eq_false_iff (s : State) :
    s.readsMemory = false ↔ s.dma.busy = false ∨ s.dma.flight.fromSlot = true := by
  simp [State.readsMemory, imp_iff_not_or]

theorem State.readsMemory_eq_true_iff (s : State) :
    s.readsMemory = true ↔ s.dma.busy = true ∧ s.dma.flight.fromSlot = false := by
  simp [State.readsMemory]

/-- A store while no transfer reads memory leaves the DMA channel and the counter of races (R56, R138). -/
theorem State.store_dma_races_of_not_reads {s : State} (h : s.readsMemory = false) (a : Addr) (n v : Nat) :
    (s.store a n v).dma = s.dma ∧ (s.store a n v).races = s.races := by
  rw [State.store_of_not_reads h]
  exact ⟨rfl, rfl⟩

/-- A store during a transfer that reads memory is one more race (log 11). -/
theorem State.store_races_of_reads {s : State} (h : s.readsMemory = true) (a : Addr) (n v : Nat) :
    (s.store a n v).races = s.races + 1 := by
  rw [State.store_of_reads h]

/-- The frame of a store: memory, the units of the transfer in flight and the counter of races (R44, R56). -/
theorem State.store_changes (s : State) (a : Addr) (n v : Nat) : s.store a n v = { s with
    mem := (s.store a n v).mem, races := (s.store a n v).races
    dma := { s.dma with flight := { s.dma.flight with units := (s.store a n v).dma.flight.units } } } := by
  cases h : s.readsMemory with
  | true => rw [State.store_of_reads h]
  | false => rw [State.store_of_not_reads h]

/-- Storing one byte writes it at its address and keeps every other byte (R44). -/
theorem State.byteAt_store_byte {s : State} (h : s.mem.wf) (a : Addr) (b : Byte) (x : Addr) :
    (s.store a 1 b.toNat).byteAt x = if x = a then b else s.byteAt x := by
  rw [State.byteAt_store h a 1 _ (by decide)]
  by_cases hx : x = a
  · subst hx
    simp [byteOfNat]
  · have hoff : ¬(x - a).toNat < 1 := by bv_omega
    rw [if_neg hoff, if_neg hx]

end Sys2Proof.Machine

/-! ### Pixels: bounds, address and value (41_framebuffer.md R91 to R93, 20_memory.md R46, R48). -/

namespace Sys2Proof.Machine

theorem State.inBounds_iff (s : State) (x y : Nat) :
    s.inBounds x y = true ↔ s.fb.valid = true ∧ x < s.fb.width ∧ y < s.fb.height := by
  simp [State.inBounds, and_assoc]

/-- The byte of a pixel: by bits in Mono, by bytes in the other modes (R46, R48). -/
theorem State.pixelAddr_eq (s : State) (x y : Nat) : s.pixelAddr x y = s.fb.base +
    BitVec.ofNat 32 (if s.mode = .mono then s.pixelBit x y / 8 else y * s.fb.width + x) := by
  unfold State.pixelAddr
  cases s.mode <;> rfl

theorem State.pixelAddr_of_mono {s : State} (h : s.mode = .mono) (x y : Nat) :
    s.pixelAddr x y = s.fb.base + BitVec.ofNat 32 (s.pixelBit x y / 8) := by
  rw [s.pixelAddr_eq, if_pos h]

theorem State.pixelAddr_of_ne_mono {s : State} (h : s.mode ≠ .mono) (x y : Nat) :
    s.pixelAddr x y = s.fb.base + BitVec.ofNat 32 (y * s.fb.width + x) := by
  rw [s.pixelAddr_eq, if_neg h]

/-- Mono: SET_PIXEL changes one bit of the pixel's byte (R92). -/
theorem State.pixelByte_of_mono {s : State} (h : s.mode = .mono) (x y : Nat) :
    s.pixelByte x y = setBit (s.byteAt (s.pixelAddr x y)) (s.pixelBit x y % 8) s.argBit := by
  rw [State.pixelByte, h]

/-- The other modes: SET_PIXEL replaces the pixel's byte (R92). -/
theorem State.pixelByte_of_ne_mono {s : State} (h : s.mode ≠ .mono) (x y : Nat) : s.pixelByte x y = s.argByte := by
  unfold State.pixelByte
  split
  case h_1 hmono => exact absurd hmono h
  all_goals rfl

/-- Mono: the value of a pixel is its bit (R93). -/
theorem State.pixelValue_of_mono {s : State} (h : s.mode = .mono) (x y : Nat) : s.pixelValue x y =
    (BitVec.ofBool ((s.byteAt (s.pixelAddr x y)).getLsbD (s.pixelBit x y % 8))).setWidth 32 := by
  rw [State.pixelValue, h]

/-- The other modes: the value of a pixel is its byte (R93). -/
theorem State.pixelValue_of_ne_mono {s : State} (h : s.mode ≠ .mono) (x y : Nat) :
    s.pixelValue x y = (s.byteAt (s.pixelAddr x y)).setWidth 32 := by
  unfold State.pixelValue
  split
  case h_1 hmono => exact absurd hmono h
  all_goals rfl

theorem exec_setPixel_of_inBounds {s : State} (h : s.inBounds s.argX s.argY = true) : exec .setPixel s =
    .next ((s.store (s.pixelAddr s.argX s.argY) 1 (s.pixelByte s.argX s.argY).toNat).setStatus statusOk) :=
  if_pos h

theorem exec_setPixel_of_not_inBounds {s : State} (h : ¬s.inBounds s.argX s.argY = true) :
    exec .setPixel s = .next (s.raiseFault .pixel) :=
  if_neg h

theorem exec_getPixel_of_inBounds {s : State} (h : s.inBounds s.argX s.argY = true) :
    exec .getPixel s = .next { s with result := s.pixelValue s.argX s.argY, status := statusOk } :=
  if_pos h

theorem exec_getPixel_of_not_inBounds {s : State} (h : ¬s.inBounds s.argX s.argY = true) :
    exec .getPixel s = .next (s.raiseFault .pixel) :=
  if_neg h

/-- Settles O33: the value read is the pixel's bit in Mono and its byte elsewhere, at the address of R46 and R48. -/
theorem getPixelReadsThePixel : Obligations.GetPixelReadsThePixel := by
  unfold Obligations.GetPixelReadsThePixel
  intro s inb b
  have hinb : s.inBounds s.argX s.argY = true ↔ inb := s.inBounds_iff _ _
  refine ⟨fun hout => exec_getPixel_of_not_inBounds (mt hinb.1 hout), fun hin =>
    ⟨_, exec_getPixel_of_inBounds (hinb.2 hin), fun hmono => ?mono, fun hmode => ?byte⟩⟩
  case mono =>
    rw [State.pixelValue_of_mono hmono, State.pixelAddr_of_mono hmono, BitVec.toNat_setWidth_of_le (by decide),
      BitVec.toNat_ofBool]
    rfl
  case byte =>
    rw [State.pixelValue_of_ne_mono hmode, State.pixelAddr_of_ne_mono hmode, BitVec.toNat_setWidth_of_le (by decide)]

/-- Settles O32: in bounds SET_PIXEL is the store of one byte, so its bytes are those of `State.byteAt_store_byte` and
its frame is that of `State.store_changes`. -/
theorem setPixelWritesOnePixel : Obligations.SetPixelWritesOnePixel := by
  unfold Obligations.SetPixelWritesOnePixel
  intro s hwf inb b a
  have hinb : s.inBounds s.argX s.argY = true ↔ inb := s.inBounds_iff _ _
  have haddr : s.pixelAddr s.argX s.argY = a := s.pixelAddr_eq _ _
  refine ⟨fun hout => exec_setPixel_of_not_inBounds (mt hinb.1 hout), fun hin =>
    ⟨_, exec_setPixel_of_inBounds (hinb.2 hin), ?_⟩⟩
  rw [haddr]
  set v := s.pixelByte s.argX s.argY with hv
  have hbyte (x : Addr) : ((s.store a 1 v.toNat).setStatus statusOk).byteAt x = if x = a then v else s.byteAt x :=
    State.byteAt_store_byte hwf a v x
  refine ⟨fun hmono k hk => ?mono, fun hmode => ?byte, fun x hx => ?otherBytes, ?frame, fun hidle => ?idle,
    fun hbusy hmem => ?race⟩
  case mono =>
    rw [hbyte, if_pos rfl, hv, State.pixelByte_of_mono hmono, haddr]
    exact setBit_getLsbD _ _ _ (Nat.mod_lt _ (by decide)) hk _
  case byte => rw [hbyte, if_pos rfl, hv, State.pixelByte_of_ne_mono hmode]
  case otherBytes => rw [hbyte, if_neg hx]
  case frame => exact congrArg (State.setStatus · statusOk) (s.store_changes a 1 v.toNat)
  case idle => exact State.store_dma_races_of_not_reads (s.readsMemory_eq_false_iff.2 hidle) a 1 v.toNat
  case race => exact State.store_races_of_reads (s.readsMemory_eq_true_iff.2 ⟨hbusy, hmem⟩) a 1 v.toNat

end Sys2Proof.Machine

/-! ### The peripheral sequencer (42_sequencer.md R99 to R106). -/

namespace Sys2Proof.Machine

theorem Mode.isVga_eq (mode : Mode) : mode.isVga = (mode == .mono || mode == .color) := by
  cases mode <;> rfl

/-- The draw of the line timer is an initial count of its pre-lock period, if that period is not 0 (R102). -/
theorem drawCount_lt (draw : Nat) {ptot : Nat} (h : 2 ≤ ptot) : drawCount draw ptot < ptot - 1 :=
  Nat.mod_lt _ (Nat.sub_pos_of_lt h)

/-! The rows of the table of R103, each over the modes that arm. -/

theorem State.armGpio_of_ne_off (s : State) {mode : Mode} (h : mode ≠ .off) : s.armGpio mode =
    { hsync := if mode.isVga then .pwm else .hiZ
      vsync := if mode.isVga then .out else .hiZ
      vlevel := mode.isVga && s.vpolCfg
      data := if mode = .mono then .gpioLow else .hiZ
      port := if mode = .mono then .hiZ else .port } := by
  cases mode
  case off => exact absurd rfl h
  all_goals rfl

theorem State.armDma_of_ne_off (s : State) {mode : Mode} (h : mode ≠ .off) : s.armDma mode =
    { Dma.reset with
      src := if mode.isVga then s.fb.base else 0
      unit := if mode = .mono then 2 else 1
      dst := if mode = .mono then .spi else .port
      irq := mode == .mono } := by
  cases mode
  case off => exact absurd rfl h
  all_goals rfl

theorem State.armSpi_modeOfStandard_en (s : State) (std : Standard) : (s.armSpi (modeOfStandard std)).en = false := by
  cases std <;> rfl

theorem State.armPort_modeOfStandard (s : State) (std : Standard) :
    s.armPort (modeOfStandard std) = ⟨true, Config.cSampleClk std⟩ := by
  cases std <;> rfl

theorem armSlot_of_isVga {mode : Mode} (h : mode.isVga = true) (slot : List Byte) : armSlot mode slot = slot := by
  cases mode
  case mono | color => rfl
  all_goals cases h

theorem armSlot_modeOfStandard (std : Standard) (slot : List Byte) :
    armSlot (modeOfStandard std) slot = List.replicate (Config.cSlotLen std) 0 := by
  cases std <;> rfl

/-- Settles O41: the pins and the DMA channel by their rows of R103, the output of one mode by that mode's own row; what
does not depend on the mode is read off the record that arm writes. -/
theorem armConfiguresThePeripherals : Obligations.ArmConfiguresThePeripherals := by
  unfold Obligations.ArmConfiguresThePeripherals
  intro s mode hmode t vga
  have hvga : vga = mode.isVga := mode.isVga_eq.symm
  have hgpio := s.armGpio_of_ne_off hmode
  have hdma := s.armDma_of_ne_off hmode
  rw [hvga]
  refine ⟨rfl, rfl, rfl, rfl, rfl, drawCount_lt s.draws,
    congrArg Gpio.hsync hgpio, congrArg Gpio.vsync hgpio, congrArg Gpio.vlevel hgpio, congrArg Gpio.data hgpio,
    congrArg Gpio.port hgpio,
    congrArg Dma.busy hdma, congrArg Dma.done hdma, congrArg Dma.unit hdma, congrArg Dma.dst hdma,
    congrArg Dma.irq hdma, congrArg Dma.src hdma,
    ?mono, ?color, ?composite, fun h => ⟨armSlot_of_isVga h s.cslot0, armSlot_of_isVga h s.cslot1⟩,
    rfl, rfl, rfl, rfl, rfl, rfl, rfl, rfl, rfl, rfl, rfl, rfl, rfl, rfl⟩
  case mono | color =>
    rintro rfl
    exact ⟨rfl, rfl⟩
  case composite =>
    rintro std rfl
    exact ⟨s.armPort_modeOfStandard std, s.armSpi_modeOfStandard_en std,
      armSlot_modeOfStandard std s.cslot0, armSlot_modeOfStandard std s.cslot1⟩

theorem Nvic.line_reset (q : Source) : Nvic.reset.line q = .reset := by
  cases q <;> rfl

/-- Disarm writes the same values into a disarmed set again (R106). -/
@[simp] theorem State.disarm_disarm (s : State) : s.disarm.disarm = s.disarm := rfl

/-- Settles O42: each part is the value that disarm writes there, and the sources are the reset controller's. -/
theorem disarmTurnsEverythingOff : Obligations.DisarmTurnsEverythingOff := by
  unfold Obligations.DisarmTurnsEverythingOff
  intro s
  exact ⟨s.disarm_disarm, rfl, Nvic.line_reset, rfl, rfl, rfl, rfl, rfl, rfl, rfl, rfl⟩

end Sys2Proof.Machine

/-! ### A tick of the timers and the events it raises (43_scanline_vga.md R108 to R111, 60_exceptions.md R171). -/

namespace Sys2Proof.Machine

/-- A remainder by a positive period is the one of R11. -/
theorem modPeriod_of_pos (a : Nat) {p : Nat} (h : 0 < p) : modPeriod a p = a % p :=
  if_neg h.ne'

/-- The PWM counts modulo its period where it is on (R109). -/
theorem State.tick_pwm_of_pos {s : State} (h : s.pwm.en = true → 0 < s.pwm.period) : s.tick.pwm =
    { s.pwm with cnt := if s.pwm.en then (s.pwm.cnt + 1) % s.pwm.period else s.pwm.cnt } := by
  rw [s.tick_pwm, State.tickPwm]
  by_cases hen : s.pwm.en = true
  · rw [if_pos hen, if_pos hen, modPeriod_of_pos _ (h hen)]
  · rw [if_neg hen, if_neg hen]

/-- The line timer counts modulo its period where it is on (R111). -/
theorem State.tick_lt_of_pos {s : State} (h : s.lt.en = true → 0 < s.lt.period) : s.tick.lt =
    { s.lt with cnt := if s.lt.en then (s.lt.cnt + 1) % s.lt.period else s.lt.cnt } := by
  rw [s.tick_lt, State.tickLt]
  by_cases hen : s.lt.en = true
  · rw [if_pos hen, if_pos hen, modPeriod_of_pos _ (h hen)]
  · rw [if_neg hen, if_neg hen]

/-- The PWM raises HC exactly where it is on and its counter wraps to 0 (R110). -/
theorem State.raisesHc_iff (s : State) : s.raisesHc = true ↔ s.pwm.en = true ∧ s.tick.pwm.cnt = 0 := by
  rw [s.tick_pwm, State.raisesHc, State.tickPwm, Bool.and_eq_true, beq_iff_eq]
  exact and_congr_right fun hen => by rw [if_pos hen]

/-- The line timer raises LT exactly where it is on and its counter wraps to 0 (R111). -/
theorem State.raisesLt_iff (s : State) : s.raisesLt = true ↔ s.lt.en = true ∧ s.tick.lt.cnt = 0 := by
  rw [s.tick_lt, State.raisesLt, State.tickLt, Bool.and_eq_true, beq_iff_eq]
  exact and_congr_right fun hen => by rw [if_pos hen]

/-- The DMA raises its event exactly where its transfer ends in the tick and its completion interrupt is on (R123). -/
theorem State.raisesDma_iff (s : State) :
    s.raisesDma = true ↔ s.dma.busy = true ∧ s.tick.dma.busy = false ∧ s.dma.irq = true := by
  rw [State.raisesDma, Bool.and_eq_true, s.completes_iff, and_assoc]

/-- The event of the source is raised in this tick: the three tests of the clock, by source. -/
def State.raises (s : State) : Source → Bool
  | .lt => s.raisesLt
  | .hc => s.raisesHc
  | .dma => s.raisesDma

theorem Source.forall_iff {P : Source → Prop} : (∀ q, P q) ↔ P .lt ∧ P .hc ∧ P .dma :=
  ⟨fun h => ⟨h .lt, h .hc, h .dma⟩, fun ⟨hlt, hhc, hdma⟩ q => by cases q <;> assumption⟩

theorem Source.exists_iff {P : Source → Prop} : (∃ q, P q) ↔ P .lt ∨ P .hc ∨ P .dma := by
  rw [← not_iff_not, not_exists, Source.forall_iff, not_or, not_or]

/-- After a tick a source is pending if it was, or if it is enabled and its event was raised (R171). -/
theorem State.tick_pend_iff (s : State) (q : Source) : (s.tick.nvic.line q).pend = true ↔
    (s.nvic.line q).pend = true ∨ (s.nvic.line q).en = true ∧ s.raises q = true := by
  rw [s.tick_pend, Bool.or_eq_true, Bool.and_eq_true, and_comm (b := (s.nvic.line q).en = true)]
  cases q <;> rfl

/-- Of a source's lines a tick changes the pending bit alone (R171). -/
theorem State.tick_nvic_line (s : State) (q : Source) :
    s.tick.nvic.line q = { s.nvic.line q with pend := (s.tick.nvic.line q).pend } := by
  obtain ⟨-, hlines⟩ := s.tick_keeps
  obtain ⟨hen, hprio⟩ := hlines q
  simp only [← hen, ← hprio]

/-- The CPU sleeps on exactly if no enabled source raised its event (R171). -/
theorem State.tick_sleep_iff (s : State) : s.tick.sleep = true ↔
    s.sleep = true ∧ ∀ q, s.raises q = true → (s.nvic.line q).en = false := by
  rw [s.tick_sleep, Source.forall_iff]
  simp only [State.raises, Nvic.line, Bool.and_eq_true, Bool.not_eq_true', Bool.and_eq_false_imp]
  tauto

/-- An event is raised whose source is enabled and still pending (R171). -/
def State.Overruns (s : State) : Prop :=
  ∃ q, s.raises q = true ∧ (s.nvic.line q).en = true ∧ (s.nvic.line q).pend = true

/-- The test of `State.tick_fault` is the overrun of one of the three sources. -/
theorem State.overruns_iff (s : State) : s.Overruns ↔
    (s.raisesHc && s.nvic.hc.en && s.nvic.hc.pend || s.raisesLt && s.nvic.lt.en && s.nvic.lt.pend ||
      s.raisesDma && s.nvic.dma.en && s.nvic.dma.pend) = true := by
  rw [State.Overruns, Source.exists_iff]
  simp only [State.raises, Nvic.line, Bool.or_eq_true, Bool.and_eq_true, and_assoc]
  tauto

theorem State.tick_fault_of_overruns {s : State} (h : s.Overruns) : s.tick.fault = s.fault ||| 0b000100#6 := by
  rw [s.tick_fault, if_pos (s.overruns_iff.1 h)]

theorem State.tick_fault_of_not_overruns {s : State} (h : ¬s.Overruns) : s.tick.fault = s.fault := by
  rw [s.tick_fault, if_neg (mt s.overruns_iff.2 h)]

/-- Settles O43: the events raised are those of `State.raises`, one source at a time; what each does to the controller,
the sleep and FAULT are the rules above. -/
theorem timersCountAndRaise : Obligations.TimersCountAndRaise := by
  unfold Obligations.TimersCountAndRaise
  intro s hpwm hlt t raised overruns
  have hraised (q : Source) : s.raises q = true ↔ raised q := by
    cases q with
    | lt => exact s.raisesLt_iff
    | hc => exact s.raisesHc_iff
    | dma => exact s.raisesDma_iff
  obtain ⟨hglobal, -⟩ := s.tick_keeps
  have hoverruns : s.Overruns ↔ overruns := exists_congr fun q => and_congr_left' (hraised q)
  refine ⟨State.tick_pwm_of_pos hpwm, State.tick_lt_of_pos hlt, fun q => ⟨s.tick_nvic_line q, ?pend⟩, hglobal, ?sleep,
    fun h => State.tick_fault_of_overruns (hoverruns.2 h), fun h => State.tick_fault_of_not_overruns (mt hoverruns.1 h),
    s.tick_changes⟩
  case pend => rw [← hraised, s.tick_pend_iff]
  case sleep => simp only [← hraised, t, s.tick_sleep_iff]

end Sys2Proof.Machine

/-! ### The handlers of HC and of the DMA (43_scanline_vga.md R124 to R126). -/

namespace Sys2Proof.Machine

/-- A pending line double goes back by one line, with REWIND where the channel is busy (R124). -/
theorem State.rewind_of_ldpend {s : State} (h : s.ldpend = true) : s.rewind = { s with
    dma := { s.dma with src := s.dma.src - BitVec.ofNat 32 s.fb.xfer }
    fault := if s.dma.busy then s.fault ||| 0b010000#6 else s.fault
    ldpend := false } := by
  rw [State.rewind, if_pos h]
  cases s.dma.busy <;> rfl

/-- Without a pending line double there is nothing to rewind (R124). -/
theorem State.rewind_of_not_ldpend {s : State} (h : s.ldpend = false) : s.rewind = s :=
  if_neg (Bool.eq_false_iff.1 h)

theorem exec_evHc (s : State) : exec .evHc s = .next { s.rewind with sleep := true } := rfl

theorem exec_evDmac (s : State) : exec .evDmac s =
    .next { s with dma := { s.dma with done := false }, gpio := { s.gpio with data := .gpioLow } } := rfl

/-- Settles O50: the handler is the rewind and then the sleep, by whether a line double is pending. -/
theorem horizontalCompareRewindsAndSleeps : Obligations.HorizontalCompareRewindsAndSleeps := by
  unfold Obligations.HorizontalCompareRewindsAndSleeps
  intro s
  exact ⟨fun h => by rw [exec_evHc, State.rewind_of_ldpend h], fun h => by rw [exec_evHc, State.rewind_of_not_ldpend h]⟩

/-- Settles O51: the handler writes the completion flag and the route of the data pin, and no more. -/
theorem dmaCompletionHandlerReleasesThePin : Obligations.DmaCompletionHandlerReleasesThePin := by
  unfold Obligations.DmaCompletionHandlerReleasesThePin
  exact exec_evDmac

end Sys2Proof.Machine

/-! ### The start of a mode (45_lifecycle.md R154 step 7, R158; 44_composite.md R133). -/

namespace Sys2Proof.Machine

/-- The interrupt lines of a running mode (R99, R105, R154). -/
theorem State.startMode_nvic (s : State) (mode : Mode) : (s.startMode mode).nvic =
    ⟨⟨true, false, 0⟩, ⟨mode.isVga, false, 1⟩, ⟨mode == .mono, false, 2⟩, true⟩ := rfl

theorem State.startMode_dma (s : State) (mode : Mode) : (s.startMode mode).dma = s.armDma mode := rfl

theorem State.byteAt_stop (s : State) (x : Addr) : s.stop.byteAt x = s.byteAt x := by
  rw [State.byteAt, s.stop_mem, State.byteAt]

/-- An allocation clears the bytes of its buffer and keeps every other byte (R88). -/
theorem State.byteAt_allocated (s : State) (mode : Mode) (w h : Nat) (x : Addr) :
    let base := (drawBase s.draws (bufferSize mode w h)).toNat
    (s.allocated mode w h).byteAt x =
      if base ≤ x.toNat ∧ x.toNat < base + bufferSize mode w h then 0 else s.byteAt x :=
  Memory.read_clear ..

/-- A mode starts if its buffer fits the allocator (R88, R154). -/
theorem State.allocateAndStart_of_fits {mode : Mode} {w h : Nat} (hfits : fitsCapacity mode w h = true) (s : State)
    (t : Timing) :
    s.allocateAndStart mode w h t = (State.allocated { s with tim := t } mode w h).startMode mode := by
  rw [State.allocateAndStart, State.allocate, if_pos hfits]

/-! The rows of a composite mode: the output of arm, the buffer and the operation. -/

theorem isVga_modeOfStandard (std : Standard) : (modeOfStandard std).isVga = false := by
  cases std <;> rfl

theorem State.armPwm_modeOfStandard (s : State) (std : Standard) :
    s.armPwm (modeOfStandard std) = ⟨true, 0, s.tim.htotalClk, 0, s.cfg.getLsbD 0⟩ := by
  rw [State.armPwm, isVga_modeOfStandard]
  rfl

theorem State.armDma_modeOfStandard (s : State) (std : Standard) :
    s.armDma (modeOfStandard std) = { Dma.reset with src := 0, unit := 1, dst := .port } := by
  cases std <;> rfl

theorem State.armGpio_modeOfStandard (s : State) (std : Standard) :
    s.armGpio (modeOfStandard std) = ⟨.hiZ, .hiZ, false, .hiZ, .port⟩ := by
  cases std <;> rfl

theorem State.startMode_nvic_modeOfStandard (s : State) (std : Standard) : (s.startMode (modeOfStandard std)).nvic =
    ⟨⟨true, false, 0⟩, ⟨false, false, 1⟩, ⟨false, false, 2⟩, true⟩ := by
  cases std <;> exact s.startMode_nvic _

theorem bufferOf_modeOfStandard (std : Standard) (w h : Nat) (base : Addr) :
    bufferOf (modeOfStandard std) w h base = byteBuffer w h (Config.cSlotLen std) base := by
  cases std <;> rfl

/-- Each composite buffer is granted, whatever the capacity: PAL's 76,800 bytes are its lower bound (R8, R158). -/
theorem fitsCapacity_modeOfStandard (std : Standard) :
    fitsCapacity (modeOfStandard std) Config.cWidth (Config.cHeight std) = true := by
  have hsize : bufferSize (modeOfStandard std) Config.cWidth (Config.cHeight std) ≤ 76800 := by
    rw [bufferSize, bufferOf_modeOfStandard]
    cases std <;> decide
  exact decide_eq_true (hsize.trans (Nat.le_add_right ..))

/-- BEGIN_COMPOSITE with the SEL of a standard stops the machine and starts the standard's mode (R158). -/
theorem exec_beginComposite_of_some {sel : Nat} {std : Standard} (h : compositeStandard sel = some std) (s : State) :
    exec (.beginComposite sel) s =
      .next ((State.allocated { s.stop with tim := compositeTiming std } (modeOfStandard std) Config.cWidth
        (Config.cHeight std)).startMode (modeOfStandard std)) := by
  change execBeginComposite sel s = _
  simp only [execBeginComposite, h, State.allocateAndStart_of_fits (fitsCapacity_modeOfStandard std)]

/-- BEGIN_COMPOSITE with any other SEL stops the machine (R158). -/
theorem exec_beginComposite_of_none {sel : Nat} (h : compositeStandard sel = none) (s : State) :
    exec (.beginComposite sel) s = .next (s.stop.setStatus statusBadMode) := by
  change execBeginComposite sel s = _
  rw [execBeginComposite, h]

/-- Settles O21: with SEL 3 or 4 the machine is the start of the standard's mode after the allocation, and its parts are
the rows of a composite mode. Only the constants of the standard (R133) need the case of SEL. -/
theorem beginCompositeStartsOrRejects : Obligations.BeginCompositeStartsOrRejects := by
  unfold Obligations.BeginCompositeStartsOrRejects
  refine fun s sel => ⟨fun std hstd => ?starts, fun hntsc hpal => ?rejects⟩
  case rejects =>
    exact exec_beginComposite_of_none (by rw [compositeStandard, if_neg hntsc, if_neg hpal]) s
  case starts =>
    have hsel : compositeStandard sel = some std := by
      rcases hstd with ⟨rfl, rfl⟩ | ⟨rfl, rfl⟩ <;> rfl
    have htim : compositeTiming std = ⟨0, 1, 0, 0, 0, if sel = 3 then 262 else 312, 0, 0,
        if sel = 3 then 5324 else 5376, 0, 0, Config.cLockOffClk std, if sel = 3 then 15777 else 15625,
        if sel = 3 then 60219 else 50080, if sel = 3 then 88 else 30⟩ := by
      rcases hstd with ⟨rfl, rfl⟩ | ⟨rfl, rfl⟩ <;> rfl
    have hfb (base : Addr) : bufferOf (modeOfStandard std) Config.cWidth (Config.cHeight std) base =
        ⟨true, base, 320, if sel = 3 then 200 else 240, 0, 320, if sel = 3 then 64000 else 76800, 0,
          Config.cSlotLen std⟩ := by
      rw [bufferOf_modeOfStandard]
      rcases hstd with ⟨rfl, rfl⟩ | ⟨rfl, rfl⟩ <;> rfl
    have hcount : 2 ≤ (compositeTiming std).htotalClk := by
      cases std <;> decide
    let stopped : State := { s.stop with tim := compositeTiming std }
    let u := stopped.allocated (modeOfStandard std) Config.cWidth (Config.cHeight std)
    have hcfg : u.cfg = s.cfg := s.stop_cfg
    refine ⟨u.startMode (modeOfStandard std), drawBase stopped.draws (bufferSize _ Config.cWidth (Config.cHeight std)),
      exec_beginComposite_of_some hsel s, rfl, rfl, rfl, htim, hfb _, fun x => ?bytes,
      u.startMode_nvic_modeOfStandard std, rfl, rfl, rfl, rfl, rfl, isVga_modeOfStandard std, rfl, rfl,
      congrArg (BitVec.getLsbD · 1) hcfg, rfl, rfl,
      armSlot_modeOfStandard std u.cslot0, armSlot_modeOfStandard std u.cslot1, ?pwm, rfl, rfl, drawCount_lt _ hcount,
      ?dma, u.armSpi_modeOfStandard_en std, u.armPort_modeOfStandard std, u.armGpio_modeOfStandard std,
      s.stop_win, hcfg, s.stop_fault, s.stop_args, s.stop_result⟩
    case bytes =>
      rw [State.startMode_fb, show u.fb.size = _ from bufferOf_size .., ← s.byteAt_stop x]
      exact stopped.byteAt_allocated _ _ _ x
    case pwm =>
      rw [← hcfg]
      exact u.armPwm_modeOfStandard std
    case dma =>
      rw [u.startMode_dma, u.armDma_modeOfStandard std]
      rfl

end Sys2Proof.Machine

/-! ### The raster predicates, the vertical states and the WAIT commands (10_state.md R39, 45_lifecycle.md R161). -/

namespace Sys2Proof.Machine

/-- Outside Off, vblank is what is not active (R161). -/
theorem State.vblank_of_ne_off {s : State} (h : s.mode ≠ .off) : s.vblank = !s.active := by
  unfold State.vblank
  split
  case h_1 hoff => exact absurd hoff h
  all_goals rfl

/-! The two predicates of a VGA mode and of a composite mode. -/

theorem ne_off_of_vga {mode : Mode} (h : mode = .mono ∨ mode = .color) : mode ≠ .off := by
  rcases h with rfl | rfl <;> nofun

theorem modeOfStandard_ne_off (std : Standard) : modeOfStandard std ≠ .off := by
  cases std <;> nofun

theorem State.active_iff_of_vga {s : State} (h : s.mode = .mono ∨ s.mode = .color) :
    s.active = true ↔ s.line.toNat < s.fb.height := by
  rcases h with h | h <;> rw [State.active, h] <;> exact decide_eq_true_iff

theorem State.active_iff_of_standard {s : State} {std : Standard} (h : s.mode = modeOfStandard std) :
    s.active = true ↔ Config.cActStart std ≤ s.line.toNat ∧
      s.line.toNat < Config.cActStart std + Config.cHeight std := by
  cases std <;> rw [State.active, h] <;> simp [modeOfStandard]

theorem State.verticalState_of_vga {s : State} (h : s.mode = .mono ∨ s.mode = .color) :
    s.verticalState = s.vgaVertical := by
  rcases h with h | h <;> rw [State.verticalState, h]

theorem State.verticalState_of_standard {s : State} {std : Standard} (h : s.mode = modeOfStandard std) :
    s.verticalState = s.compositeVertical std := by
  cases std <;> rw [State.verticalState, h] <;> rfl

/-- The lines of each vertical state of a VGA frame (R39); `State.vgaVertical_eq_some_iff` ties it to the model. -/
def State.LineIn (s : State) : VerticalState → Prop
  | .activePicture => s.line.toNat < s.fb.height
  | .frontPorch => s.fb.height ≤ s.line.toNat ∧ s.line.toNat < s.tim.vss
  | .vsyncPulse => s.tim.vss ≤ s.line.toNat ∧ s.line.toNat < s.tim.vse
  | .backPorch => s.tim.vse ≤ s.line.toNat ∧ s.line.toNat < s.tim.vtotal

/-- In a valid raster the bounds of the vertical states increase, so the first test of the model that holds is the one
of the state whose lines hold the present line (R39). -/
theorem State.vgaVertical_eq_some_iff {s : State} (hinv : s.VgaInv) (v : VerticalState) :
    s.vgaVertical = some v ↔ s.LineIn v := by
  obtain ⟨hvss, hvse⟩ := hinv.vertical
  have hheight := hinv.picture
  constructor
  case mp =>
    intro h
    unfold State.vgaVertical at h
    split_ifs at h with hactive hfront hpulse hback <;> cases h
    · exact hactive
    · exact ⟨not_lt.1 hactive, hfront⟩
    · exact ⟨not_lt.1 hfront, hpulse⟩
    · exact ⟨not_lt.1 hpulse, hback⟩
  case mpr =>
    intro h
    cases v with
    | activePicture => exact if_pos h
    | frontPorch =>
      obtain ⟨hfrom, hto⟩ := h
      rw [State.vgaVertical, if_neg (by omega), if_pos hto]
    | vsyncPulse =>
      obtain ⟨hfrom, hto⟩ := h
      rw [State.vgaVertical, if_neg (by omega), if_neg (by omega), if_pos hto]
    | backPorch =>
      obtain ⟨hfrom, hto⟩ := h
      rw [State.vgaVertical, if_neg (by omega), if_neg (by omega), if_neg (by omega), if_pos hto]

/-- In a valid raster a line outside the picture is one of the other three states: no line lies past the last. -/
theorem State.not_active_iff_lineIn {s : State} (hinv : s.VgaInv) : ¬s.LineIn .activePicture ↔
    s.LineIn .frontPorch ∨ s.LineIn .vsyncPulse ∨ s.LineIn .backPorch := by
  obtain ⟨hvss, hvse⟩ := hinv.vertical
  have hheight := hinv.picture
  have hline := hinv.line
  simp only [State.LineIn]
  omega

theorem State.compositeVertical_eq_active_iff (s : State) (std : Standard) :
    s.compositeVertical std = some .activePicture ↔ Config.cActStart std ≤ s.line.toNat ∧
      s.line.toNat < Config.cActStart std + Config.cHeight std := by
  simp [State.compositeVertical]

theorem State.horizontalState_eq_synced_iff (s : State) : s.horizontalState = .synced ↔ s.synced = true := by
  simp [State.horizontalState]

theorem State.horizontalState_eq_awaiting_iff (s : State) :
    s.horizontalState = .awaitingHorizontalLock ↔ s.synced = false := by
  simp [State.horizontalState]

/-- A WAIT whose predicate holds ends with STATUS 0 (R162, R163). -/
theorem State.wait_of_holds {s : State} {w : WaitFor} (h : s.waitHolds w = true) : s.wait w = { s with status := 0 } :=
  if_pos h

/-- A WAIT whose predicate fails records what the host is held for (R162, R163). -/
theorem State.wait_of_not_holds {s : State} {w : WaitFor} (h : s.waitHolds w = false) :
    s.wait w = { s with waiting := some w } :=
  if_neg (Bool.eq_false_iff.1 h)

theorem exec_waitVblank (s : State) : exec .waitVblank s = .next (s.wait .vblank) := rfl

theorem exec_waitActive (s : State) : exec .waitActive s = .next (s.wait .active) := rfl

/-- Settles O24: the predicates and the vertical state by the kind of mode, each vertical state of a valid VGA raster by
its lines, and the WAIT commands by their predicate. -/
theorem waitsEndOrHold : Obligations.WaitsEndOrHold := by
  unfold Obligations.WaitsEndOrHold
  intro s
  refine ⟨fun hoff => ?off, fun hvga => ⟨State.active_iff_of_vga hvga, State.vblank_of_ne_off (ne_off_of_vga hvga)⟩,
    fun std hstd => ⟨State.active_iff_of_standard hstd, State.vblank_of_ne_off (hstd ▸ modeOfStandard_ne_off std)⟩,
    fun hvga hinv => ?vertical, fun std hstd => ?composite, s.horizontalState_eq_synced_iff,
    s.horizontalState_eq_awaiting_iff, ?waits⟩
  case off => constructor <;> simp only [State.active, State.vblank, hoff]
  case vertical =>
    have hlines := State.vgaVertical_eq_some_iff hinv
    rw [State.verticalState_of_vga hvga]
    refine ⟨hlines _, hlines _, hlines _, hlines _, ?_⟩
    rw [hlines, hlines, hlines, ← State.not_active_iff_lineIn hinv, State.vblank_of_ne_off (ne_off_of_vga hvga),
      Bool.not_eq_true', Bool.eq_false_iff, ne_eq, State.active_iff_of_vga hvga, State.LineIn]
  case composite => rw [State.verticalState_of_standard hstd, s.compositeVertical_eq_active_iff]
  case waits =>
    rw [exec_waitVblank, exec_waitActive]
    exact ⟨fun h => congrArg _ (State.wait_of_holds h), fun h => congrArg _ (State.wait_of_not_holds h),
      fun h => congrArg _ (State.wait_of_holds h), fun h => congrArg _ (State.wait_of_not_holds h)⟩

end Sys2Proof.Machine

/-! ### The register window after reset (70_reset_and_hazards.md R178). -/

namespace Sys2Proof.Machine

/-- The Reset column of the register window (R178). -/
def resetColumn (off : Nat) : Word :=
  if off = 0x2C then 3 else if off = 0x30 then 27000 else if off = 0x34 then 83000
  else if off = 0x38 then 57 else if off = 0x3C then 70 else 0

/-- By the offsets the window names: each shows a field at its reset value, and every other offset reads 0. -/
theorem State.register_reset (off : Nat) : State.reset.register off = resetColumn off := by
  unfold State.register
  split
  case h_41 => simp_all only [resetColumn, imp_false, if_false]
  all_goals rfl

/-- The Reset column by an offset of the window, as R178 writes it. -/
theorem resetColumn_toNat (off : BitVec 8) : resetColumn off.toNat =
    if off = 0x2C then 3 else if off = 0x30 then 27000 else if off = 0x34 then 83000
    else if off = 0x38 then 57 else if off = 0x3C then 70 else 0 := by
  simp only [← BitVec.toNat_inj]
  rfl

/-- Settles O10: each field by the definition of reset, the interrupt lines for every source, and the register window by
its Reset column. -/
theorem resetStateIsTheTable : Obligations.ResetStateIsTheTable := by
  unfold Obligations.ResetStateIsTheTable
  refine ⟨rfl, rfl, rfl, rfl, rfl, rfl, rfl, rfl, rfl, rfl, rfl, rfl, rfl, rfl, rfl, rfl, rfl, rfl, rfl, rfl, rfl, rfl,
    rfl, rfl, rfl, rfl, rfl, rfl, rfl, rfl, rfl, ?interruptLines, rfl, rfl, rfl, ?registers⟩
  case interruptLines => exact Nvic.line_reset
  case registers => exact fun off => (State.register_reset off.toNat).trans (resetColumn_toNat off)

end Sys2Proof.Machine

/-! ### Each operation has one word, and each word at most one operation (30_encoding.md R59, R60, R62, R67). -/

namespace Sys2Proof.Machine

/-- The number of two joined fields. -/
theorem toNat_append_eq {m n : Nat} (x : BitVec m) (y : BitVec n) : (x ++ y).toNat = x.toNat * 2 ^ n + y.toNat := by
  rw [BitVec.toNat_append, ← Nat.shiftLeft_add_eq_or_of_lt y.isLt, Nat.shiftLeft_eq]

theorem encode_toNat (i : Instr) : (encode i).toNat = (selOf i).toNat * 256 + (opcodeOf i).toNat := by
  simp only [encode, toNat_append_eq, BitVec.toNat_zero]
  omega

/-- The decoder is the inverse of the encoder: its three tests hold exactly for the operation's own word (R60, R62). -/
theorem decode_ok_iff_encode {c : Word} {i : Instr} : decode c = .ok i ↔ encode i = c ∧ i.wellFormed = true := by
  rw [decode_ok_iff, decodeOp_ok_iff, BitVec.toNat_eq, BitVec.toNat_eq, BitVec.toNat_eq, BitVec.toNat_eq, encode_toNat,
    rsvField_toNat, selField_toNat, opField_toNat, show (0 : BitVec 16).toNat = 0 from rfl]
  have hsel := (selOf i).isLt
  have hop := (opcodeOf i).isLt
  constructor
  · rintro ⟨hrsv, hc, hs, hwf⟩
    exact ⟨by omega, hwf⟩
  · rintro ⟨hc, hwf⟩
    exact ⟨by omega, by omega, by omega, hwf⟩

/-- The four bytes of a word hold it, the first at the lowest address (20_memory.md R45). -/
theorem decodeBytes_tableBytes (c : Word) : decodeBytes (tableBytes 32 c.toNat) = decode c := by
  have hlt := c.isLt
  have hword : wordOfBytes (byteOfNat (c.toNat % 2 ^ 32) 0) (byteOfNat (c.toNat % 2 ^ 32) 1)
      (byteOfNat (c.toNat % 2 ^ 32) 2) (byteOfNat (c.toNat % 2 ^ 32) 3) = c := by
    apply BitVec.eq_of_toNat_eq
    simp only [wordOfBytes, byteOfNat, toNat_append_eq, BitVec.toNat_ofNat]
    omega
  exact congrArg decode hword

/-- Settles O1: the three readings of a word are the one decoder, which is the inverse of the encoder. -/
theorem decodeEncodeAgree : Obligations.DecodeEncodeAgree := by
  unfold Obligations.DecodeEncodeAgree
  intro i hwf
  have hdecode : decode (encode i) = .ok i := decode_ok_iff_encode.2 ⟨rfl, hwf⟩
  refine ⟨hdecode, (decodeBytes_tableBytes _).trans hdecode, ?_⟩
  rw [decodeCmd_ok_iff_decode]
  exact and_iff_right hdecode

/-- Settles O2: one direction of `decode_ok_iff_encode`. -/
theorem encodeDecodeAgree : Obligations.EncodeDecodeAgree := by
  unfold Obligations.EncodeDecodeAgree
  exact fun _ _ => decode_ok_iff_encode.1

/-- Settles O3: each word written out is the word that `encode` gives its operation. -/
theorem mapWordsDecode : Obligations.MapWordsDecode := by
  unfold Obligations.MapWordsDecode
  have own {c : Word} {i : Instr} (hc : encode i = c) (hwf : i.wellFormed = true) : decode c = .ok i :=
    decode_ok_iff_encode.2 ⟨hc, hwf⟩
  exact ⟨own rfl rfl, own rfl rfl, own rfl rfl, own rfl rfl, own rfl rfl, own rfl rfl, own rfl rfl, own rfl rfl,
    own rfl rfl, own rfl rfl, own rfl rfl⟩

end Sys2Proof.Machine

/-! ### Events and what a step does with them (60_exceptions.md R171 to R175; 45_lifecycle.md R162). -/

namespace Sys2Proof.Machine

@[simp] theorem Nvic.line_setPend_same (n : Nvic) (q : Source) (p : Bool) :
    (n.setPend q p).line q = { n.line q with pend := p } := by
  cases q <;> rfl

theorem Nvic.line_setPend_of_ne (n : Nvic) {q q' : Source} (h : q' ≠ q) (p : Bool) :
    (n.setPend q p).line q' = n.line q' := by
  cases q <;> cases q'
  case lt.lt | hc.hc | dma.dma => exact absurd rfl h
  all_goals rfl

theorem State.raiseEvent_of_en {s : State} {q : Source} (h : (s.nvic.line q).en = true) : s.raiseEvent q = { s with
    nvic := s.nvic.setPend q true
    sleep := false
    fault := if (s.nvic.line q).pend then s.fault ||| 0b000100#6 else s.fault } := by
  rw [State.raiseEvent, if_pos h]
  cases (s.nvic.line q).pend <;> rfl

/-- Settles O9: an event of an enabled source by `State.raiseEvent_of_en`, its lines by the rules of `Nvic.setPend`. -/
theorem recordingAnEvent : Obligations.RecordingAnEvent := by
  unfold Obligations.RecordingAnEvent
  intro s q
  refine ⟨fun hoff => if_neg (Bool.eq_false_iff.1 hoff), fun hen => ?_⟩
  rw [State.raiseEvent_of_en hen]
  exact ⟨rfl, s.nvic.line_setPend_same q true, (s.nvic.setPend_keeps q true).1,
    fun q' hne => s.nvic.line_setPend_of_ne hne true⟩

/-! The choice of the source that is served. -/

/-- `o` is a ready source of `qs` with the smallest level, or none if none of them is ready (R172). -/
def Nvic.Chooses (n : Nvic) (qs : List Source) : Option Source → Prop
  | none => ∀ q ∈ qs, n.ready q = false
  | some q => n.ready q = true ∧ ∀ q' ∈ qs, n.ready q' = true → (n.line q).prio ≤ (n.line q').prio

theorem Nvic.candidate_chooses (n : Nvic) (q : Source) : n.Chooses [q] (n.candidate q) := by
  unfold Nvic.candidate
  split
  · rename_i h
    exact ⟨h, fun q' hq' _ => by rw [List.mem_singleton.1 hq']⟩
  · rename_i h
    exact fun q' hq' => by rw [List.mem_singleton.1 hq']; exact Bool.eq_false_iff.2 h

/-- The better of two choices is a choice from both lists: `higher` compares their levels (R172). -/
theorem Nvic.higher_chooses {n : Nvic} {ps qs : List Source} {o o' : Option Source} (hp : n.Chooses ps o)
    (hq : n.Chooses qs o') : n.Chooses (ps ++ qs) (n.higher o o') := by
  match o, o' with
  | none, none => exact fun r hr => (List.mem_append.1 hr).elim (hp r) (hq r)
  | none, some b =>
    refine ⟨hq.1, fun r hr hready => (List.mem_append.1 hr).elim (fun h => ?_) (fun h => hq.2 r h hready)⟩
    rw [hp r h] at hready
    cases hready
  | some a, none =>
    refine ⟨hp.1, fun r hr hready => (List.mem_append.1 hr).elim (fun h => hp.2 r h hready) fun h => ?_⟩
    rw [hq r h] at hready
    cases hready
  | some a, some b =>
    unfold Nvic.higher
    dsimp only
    split
    · rename_i hlt
      exact ⟨hq.1, fun r hr hready => (List.mem_append.1 hr).elim
        (fun h => hlt.le.trans (hp.2 r h hready)) (fun h => hq.2 r h hready)⟩
    · rename_i hle
      exact ⟨hp.1, fun r hr hready => (List.mem_append.1 hr).elim
        (fun h => hp.2 r h hready) (fun h => (not_lt.1 hle).trans (hq.2 r h hready))⟩

theorem Source.mem_all (q : Source) : q ∈ [Source.lt, .hc, .dma] := by
  cases q <;> decide

/-- Under the global enable the event service chooses from all three sources (R172). -/
theorem State.nextEvent_chooses {s : State} (h : s.nvic.global = true) :
    s.nvic.Chooses [.lt, .hc, .dma] s.nextEvent := by
  rw [State.nextEvent, if_pos h]
  exact Nvic.higher_chooses (Nvic.higher_chooses (s.nvic.candidate_chooses .lt) (s.nvic.candidate_chooses .hc))
    (s.nvic.candidate_chooses .dma)

theorem Nvic.ready_iff (n : Nvic) (q : Source) : n.ready q = true ↔ (n.line q).en = true ∧ (n.line q).pend = true := by
  rw [Nvic.ready, Bool.and_eq_true]

theorem State.nextEvent_some {s : State} {q : Source} (h : s.nextEvent = some q) :
    s.nvic.global = true ∧ s.nvic.ready q = true ∧
      ∀ q', s.nvic.ready q' = true → (s.nvic.line q).prio ≤ (s.nvic.line q').prio := by
  have hglobal : s.nvic.global = true := by
    by_contra hoff
    rw [State.nextEvent, if_neg hoff] at h
    cases h
  have hchoice := State.nextEvent_chooses hglobal
  rw [h] at hchoice
  exact ⟨hglobal, hchoice.1, fun q' => hchoice.2 q' q'.mem_all⟩

theorem State.nextEvent_eq_none_iff (s : State) :
    s.nextEvent = none ↔ s.nvic.global = false ∨ ∀ q, s.nvic.ready q = false := by
  constructor
  · intro h
    by_cases hglobal : s.nvic.global = true
    · have hchoice := State.nextEvent_chooses hglobal
      rw [h] at hchoice
      exact .inr fun q => hchoice q q.mem_all
    · exact .inl (Bool.eq_false_iff.2 hglobal)
  · intro h
    cases hq : s.nextEvent with
    | none => rfl
    | some q =>
      obtain ⟨hglobal, hready, -⟩ := State.nextEvent_some hq
      rcases h with h | h
      · rw [hglobal] at h; cases h
      · rw [h q] at hready; cases hready

/-- Settles O7: the source served is a choice from all three sources. -/
theorem serviceTakesHighestPriority : Obligations.ServiceTakesHighestPriority := by
  unfold Obligations.ServiceTakesHighestPriority
  refine fun s => ⟨fun q hq => ?served, ?none⟩
  case served =>
    obtain ⟨hglobal, hready, hleast⟩ := State.nextEvent_some hq
    obtain ⟨hen, hpend⟩ := (s.nvic.ready_iff q).1 hready
    exact ⟨hglobal, hen, hpend, fun q' hen' hpend' => hleast q' ((s.nvic.ready_iff q').2 ⟨hen', hpend'⟩)⟩
  case none =>
    simp only [s.nextEvent_eq_none_iff, ← Nvic.ready_iff, Bool.not_eq_true]

/-! One step, by what there is to do. -/

theorem step_of_some {s : State} {q : Source} (h : s.nextEvent = some q) :
    step s = afterHandler (exec (handlerOf q) (s.enterHandler q)) := by
  rw [step, h]
  exact serveEvent_eq q s

theorem step_of_none {s : State} (h : s.nextEvent = none) : step s = foreground s := by
  rw [step, h]

theorem State.hostFree_iff (s : State) : s.hostFree = true ↔ s.sleep = false ∧ s.waiting = none := by
  simp [State.hostFree]

theorem step_of_access {s : State} {a : HostAccess} {rest : List HostMove} (hq : s.nextEvent = none)
    (hf : s.hostFree = true) (hi : s.inbox = .access a :: rest) : step s = hostAccess a { s with inbox := rest } := by
  rw [step_of_none hq, foreground, if_pos hf, hi]

theorem step_of_idle {s : State} {rest : List HostMove} (hq : s.nextEvent = none) (hf : s.hostFree = true)
    (hi : s.inbox = .idle :: rest) : step s = .next (State.tick { s with inbox := rest }) := by
  rw [step_of_none hq, foreground, if_pos hf, hi]

/-- Nothing to serve and no move of the host: the step is a tick (R108, R174). -/
theorem step_of_no_move {s : State} (hq : s.nextEvent = none) (h : s.hostFree = false ∨ s.inbox = []) :
    step s = .next s.tick := by
  rw [step_of_none hq, foreground]
  split
  · rename_i hf
    rcases h with h | h
    · rw [hf] at h; cases h
    · rw [h]
  · rfl

/-- Settles O5: the step is the access, and a 32-bit write to CMD runs the word's operation. -/
theorem stepRunsHostCommand : Obligations.StepRunsHostCommand := by
  unfold Obligations.StepRunsHostCommand
  rintro s c v off i rest hq hsleep hwait rfl rfl hi hdecode
  rw [step_of_access hq (s.hostFree_iff.2 ⟨hsleep, hwait⟩) hi]
  change issueCommand v _ = _
  rw [issueCommand, hdecode]

theorem State.leaveHandler_of_none {s : State} (h : s.waiting = none) : s.leaveHandler = s := by
  rw [State.leaveHandler, State.resolveWait, h]

/-- The return looks at the predicate of a held WAIT (R162). -/
theorem State.leaveHandler_of_some {s : State} {w : WaitFor} (h : s.waiting = some w) : s.leaveHandler =
    if s.waitHolds w = true then { s with status := 0#32, waiting := none } else s := by
  rw [State.leaveHandler, State.resolveWait, h]
  rfl

/-- Settles O6: the entry by the rules of `Nvic.setPend`, the return by whether a WAIT holds the host. -/
theorem stepRunsPendingHandler : Obligations.StepRunsPendingHandler := by
  unfold Obligations.StepRunsPendingHandler
  intro s q hq
  obtain ⟨t, ht⟩ := exec_next (handlerOf q) (s.enterHandler q)
  refine ⟨t, ht, ?step, s.nvic.line_setPend_same q false, fun q' hne => s.nvic.line_setPend_of_ne hne false,
    (s.nvic.setPend_keeps q false).1, rfl, State.leaveHandler_of_none,
    fun w hw => (State.leaveHandler_of_some hw).trans (by cases w <;> rfl)⟩
  case step =>
    rw [step_of_some hq, ht]
    rfl

end Sys2Proof.Machine

/-! ### What a command and what a handler can do, said once (45_lifecycle.md R154 to R163; 43_scanline_vga.md R113,
R124, R125). -/

namespace Sys2Proof.Machine

/-- What BEGIN and BEGIN_COMPOSITE can answer: after the stop, an error status, or a mode that starts. -/
inductive StartEffect (s : State) : State → Prop where
  | rejected (c : Word) (hc : c ≠ 0) : StartEffect s (s.stop.setStatus c)
  | outOfMemory : StartEffect s (State.setStatus { s.stop with tim := .reset } statusNoMemory)
  | startVga {mode : Mode} {tim : Timing} (hmode : mode.isVga = true) (hmin : 8 ≤ s.argWidth)
      (hmax : s.argWidth ≤ 800) (hheight : 1 ≤ s.argHeight)
      (htim : solve Config.hmarginClk s.argWidth s.argHeight (mode == .color) s.win = some tim) :
      StartEffect s ((State.allocated { s.stop with tim } mode s.argWidth s.argHeight).startMode mode)
  | startComposite (std : Standard) : StartEffect s
      ((State.allocated { s.stop with tim := compositeTiming std } (modeOfStandard std) Config.cWidth
        (Config.cHeight std)).startMode (modeOfStandard std))

/-- What a command of the host can answer. -/
inductive CommandEffect (s : State) : Instr → State → Prop where
  | start {i : Instr} {t : State} (h : StartEffect s t) : CommandEffect s i t
  | endOff {i : Instr} (h : s.life = .off) : CommandEffect s i s
  | endRunning {i : Instr} : CommandEffect s i (s.stop.setStatus statusOk)
  | setMonitorRange : CommandEffect s .setMonitorRange (State.setStatus { s with win := s.argWindow } statusOk)
  | setPixel {i : Instr} : CommandEffect s i
      ((s.store (s.pixelAddr s.argX s.argY) 1 (s.pixelByte s.argX s.argY).toNat).setStatus statusOk)
  | pixelFault {i : Instr} : CommandEffect s i (s.raiseFault .pixel)
  | getPixel {i : Instr} : CommandEffect s i { s with result := s.pixelValue s.argX s.argY, status := statusOk }
  | wait {i : Instr} (w : WaitFor) : CommandEffect s i (s.wait w)

/-- What the handler of a source can answer. -/
inductive HandlerEffect (s : State) : Source → State → Prop where
  | lock (h : s.synced = false) : HandlerEffect s .lt s.lockStep
  | raster (h : s.synced = true) : HandlerEffect s .lt s.rasterLine
  | rewind : HandlerEffect s .hc { s.rewind with sleep := true }
  | complete : HandlerEffect s .dma
      { s with dma := { s.dma with done := false }, gpio := { s.gpio with data := .gpioLow } }

/-- A mode whose buffer does not fit is not started (R88, R154). -/
theorem State.allocateAndStart_of_not_fits {mode : Mode} {w h : Nat} (hfits : fitsCapacity mode w h = false) (s : State)
    (t : Timing) : s.allocateAndStart mode w h t = State.setStatus { s with tim := .reset } statusNoMemory := by
  rw [State.allocateAndStart, State.allocate, if_neg (Bool.eq_false_iff.1 hfits)]

theorem isVga_of_beginMode {sel : Nat} {mode : Mode} (h : beginMode sel = some mode) : mode.isVga = true := by
  unfold beginMode at h
  split_ifs at h <;> cases h <;> rfl

theorem beginWith_effect (s : State) (sel : Nat) : StartEffect s (s.beginWith Config.hmarginClk sel) := by
  unfold State.beginWith
  split
  · exact .rejected _ (by decide)
  · rename_i mode hmode
    unfold State.beginVga
    split_ifs with hsize htall
    · exact .rejected _ (by decide)
    · exact .rejected _ (by decide)
    · rw [State.stop_win]
      split
      · exact .rejected _ (by decide)
      · rename_i tim htim
        cases hfits : fitsCapacity mode s.argWidth s.argHeight with
        | true =>
          rw [State.allocateAndStart_of_fits hfits]
          simp only [not_or, not_lt] at hsize
          obtain ⟨hmin, hmax, hheight⟩ := hsize
          exact .startVga (isVga_of_beginMode hmode) hmin hmax hheight htim
        | false =>
          rw [State.allocateAndStart_of_not_fits hfits]
          exact .outOfMemory

theorem exec_begin_effect {sel : Nat} {s t : State} (h : exec (.begin sel) s = .next t) : StartEffect s t := by
  cases h
  exact beginWith_effect s sel

theorem exec_beginComposite_effect {sel : Nat} {s t : State} (h : exec (.beginComposite sel) s = .next t) :
    StartEffect s t := by
  cases hstd : compositeStandard sel with
  | none =>
    rw [exec_beginComposite_of_none hstd] at h
    cases h
    exact .rejected _ (by decide)
  | some std =>
    rw [exec_beginComposite_of_some hstd] at h
    cases h
    exact .startComposite std

theorem command_effect {i : Instr} {s t : State} (hi : i.hostIssuable = true) (h : exec i s = .next t) :
    CommandEffect s i t := by
  cases i with
  | begin sel => exact .start (exec_begin_effect h)
  | beginComposite sel => exact .start (exec_beginComposite_effect h)
  | endMode =>
    simp only [exec, execEnd] at h
    split at h <;> rename_i hlife <;> cases h
    · exact .endOff hlife
    · exact .endRunning
  | setMonitorRange => cases h; exact .setMonitorRange
  | setPixel =>
    simp only [exec, execSetPixel] at h
    split at h <;> cases h
    · exact .setPixel
    · exact .pixelFault
  | getPixel =>
    simp only [exec, execGetPixel] at h
    split at h <;> cases h
    · exact .getPixel
    · exact .pixelFault
  | waitVblank => cases h; exact .wait .vblank
  | waitActive => cases h; exact .wait .active
  | evLt | evHc | evDmac => cases hi

theorem handler_effect {q : Source} {s t : State} (h : exec (handlerOf q) s = .next t) : HandlerEffect s q t := by
  cases q with
  | lt =>
    simp only [handlerOf, exec, execEvLt] at h
    split at h <;> rename_i hsynced <;> cases h
    · exact .raster hsynced
    · exact .lock (Bool.eq_false_iff.2 hsynced)
  | hc => cases h; exact .rewind
  | dma => cases h; exact .complete

/-- An operation is the handler of a source, or a command that the host may issue (30_encoding.md R59). -/
theorem handlerOf_or_hostIssuable (i : Instr) : (∃ q, i = handlerOf q) ∨ i.hostIssuable = true := by
  cases i with
  | evLt => exact .inl ⟨.lt, rfl⟩
  | evHc => exact .inl ⟨.hc, rfl⟩
  | evDmac => exact .inl ⟨.dma, rfl⟩
  | _ => exact .inr rfl

/-- What holds of every answer of a handler and of every answer of a command holds of every answer of `exec`. -/
theorem exec_cases {P : State → Prop} {i : Instr} {s t : State} (h : exec i s = .next t)
    (handler : ∀ q, HandlerEffect s q t → P t) (command : CommandEffect s i t → P t) : P t := by
  rcases handlerOf_or_hostIssuable i with ⟨q, rfl⟩ | hi
  · exact handler q (handler_effect h)
  · exact command (command_effect hi h)

end Sys2Proof.Machine

/-! ### What the handlers and the commands leave alone: memory, the window, the host's moves (20_memory.md R57;
45_lifecycle.md R165.5; 60_exceptions.md R174). -/

namespace Sys2Proof.Machine

/-- What no handler and no tick touches: the host's side of the state. -/
structure State.SameHost (s t : State) : Prop where
  inbox : t.inbox = s.inbox
  waiting : t.waiting = s.waiting
  status : t.status = s.status
  mem : t.mem = s.mem
  win : t.win = s.win

theorem HandlerEffect.sameHost {s t : State} {q : Source} (h : HandlerEffect s q t) : s.SameHost t := by
  cases h <;> constructor <;> simp

/-- A command changes the window only if it is SET_MONITOR_RANGE (R165.5). -/
theorem CommandEffect.win_of_ne {s t : State} {i : Instr} (h : CommandEffect s i t) (hi : i ≠ .setMonitorRange) :
    t.win = s.win := by
  cases h with
  | start h => cases h <;> simp
  | setMonitorRange => exact absurd rfl hi
  | _ => simp

/-- An access changes the window only if it runs SET_MONITOR_RANGE (R165.5). -/
theorem AccessEffect.exec_setMonitorRange_of_win_ne {s t : State} (h : AccessEffect s t) (hwin : t.win ≠ s.win) :
    exec .setMonitorRange s = .next t := by
  cases h with
  | @command i t c hdecode hexec =>
    by_cases hi : i = .setMonitorRange
    · exact hi ▸ hexec
    · obtain ⟨-, hhost⟩ := decodeCmd_ok hdecode
      exact absurd ((command_effect hhost hexec).win_of_ne hi) hwin
  | _ => exact absurd (by simp) hwin

/-- A step that changes something no handler and no tick touches is an access of the host (R57, R174). -/
theorem step_is_access {α : Type} {f : State → α} (hidle : ∀ s (rest : List HostMove), f { s with inbox := rest } = f s)
    (htick : ∀ s : State, f s.tick = f s)
    (hhandler : ∀ (s u : State) (q : Source), (s.enterHandler q).SameHost u → f u.leaveHandler = f s)
    {s t : State} (h : step s = .next t) (hne : f t ≠ f s) :
    ∃ a rest, s.inbox = .access a :: rest ∧ s.hostFree = true ∧ hostAccess a { s with inbox := rest } = .next t ∧
      AccessEffect { s with inbox := rest } t := by
  cases step_effect h with
  | handler q hq hu => exact absurd (hhandler s _ q (handler_effect hu).sameHost) hne
  | tick hq => exact absurd (htick s) hne
  | idle hq hf rest hi => exact absurd ((htick _).trans (hidle s rest)) hne
  | access hq hf a rest hi ha he => exact ⟨a, rest, hi, hf, ha, he⟩

/-- Settles O39: the handlers and the ticks leave memory, so the step is an access. -/
theorem onlyTheHostWritesMemory : Obligations.OnlyTheHostWritesMemory := by
  unfold Obligations.OnlyTheHostWritesMemory
  intro s t h hne
  obtain ⟨a, rest, hi, hf, ha, -⟩ := step_is_access (f := State.mem) (fun _ _ => rfl) State.tick_mem
    (fun s u q hu => by rw [State.leaveHandler_mem, hu.mem, State.enterHandler_mem]) h hne
  exact ⟨a, rest, hi, hf, ha⟩

/-- Settles O17: the handlers and the ticks leave the window, so the step is an access, and of the accesses only
SET_MONITOR_RANGE changes it. -/
theorem windowChangesOnlyBySetMonitorRange : Obligations.WindowChangesOnlyBySetMonitorRange := by
  unfold Obligations.WindowChangesOnlyBySetMonitorRange
  intro s t h hne
  obtain ⟨a, rest, hi, hf, ha, he⟩ := step_is_access (f := State.win) (fun _ _ => rfl) State.tick_win
    (fun s u q hu => by rw [State.leaveHandler_win, hu.win, State.enterHandler_win]) h hne
  exact ⟨a, rest, hi, hf, ha, he.exec_setMonitorRange_of_win_ne hne⟩

/-- Settles O16. -/
theorem setMonitorRangeStoresWindow : Obligations.SetMonitorRangeStoresWindow := by
  unfold Obligations.SetMonitorRangeStoresWindow
  exact fun _ => rfl

/-- Nothing is served exactly if no enabled source is pending under the global enable (R172). -/
theorem State.nextEvent_eq_none_iff_quiet (s : State) : s.nextEvent = none ↔
    ¬(s.nvic.global = true ∧ ∃ q, (s.nvic.line q).en = true ∧ (s.nvic.line q).pend = true) := by
  simp only [s.nextEvent_eq_none_iff, not_and, not_exists, ← Nvic.ready_iff, Bool.not_eq_true]
  cases s.nvic.global <;> simp

/-- Settles O8: with something to serve the step is a handler, which leaves the host's moves; with nothing to serve it
is what `foreground` does by whether the host is free and by its next move. -/
theorem hostGateHolds : Obligations.HostGateHolds := by
  unfold Obligations.HostGateHolds
  intro s quiet gate
  have hquiet : quiet ↔ s.nextEvent = none := s.nextEvent_eq_none_iff_quiet.symm
  have hfree (hg : gate) (hw : s.waiting = none) : s.hostFree = true := s.hostFree_iff.2 ⟨hg.1, hw⟩
  refine ⟨fun hclosed t ht => ?closed, fun hg hw a rest hi => step_of_access (hquiet.1 hg.2) (hfree hg hw) hi,
    fun hq hno => step_of_no_move (hquiet.1 hq) ?noMove,
    fun hg hw rest hi => step_of_idle (hquiet.1 hg.2) (hfree hg hw) hi⟩
  case closed =>
    have hshut (hq : s.nextEvent = none) (hf : s.hostFree = true) : False := by
      obtain ⟨hsleep, hwait⟩ := s.hostFree_iff.1 hf
      exact hclosed.elim (fun hg => hg ⟨hsleep, hquiet.2 hq⟩) (fun hw => hw hwait)
    cases step_effect ht with
    | handler q hq hu =>
      rw [State.leaveHandler_inbox, (handler_effect hu).sameHost.inbox, State.enterHandler_inbox]
    | tick hq => exact s.tick_inbox
    | idle hq hf rest hi => exact (hshut hq hf).elim
    | access hq hf a rest hi ha he => exact (hshut hq hf).elim
  case noMove =>
    rw [← or_assoc] at hno
    refine hno.imp_left fun h => Bool.eq_false_iff.2 fun hf => ?_
    obtain ⟨hsleep, hwait⟩ := s.hostFree_iff.1 hf
    rcases h with h | h
    · rw [hsleep] at h; cases h
    · exact h hwait

/-- Settles O25: the handler leaves the WAIT and STATUS, and the return is that of `State.leaveHandler_of_some`. -/
theorem heldWaitEndsAfterEvent : Obligations.HeldWaitEndsAfterEvent := by
  unfold Obligations.HeldWaitEndsAfterEvent
  intro s t q w hq hw hstep
  obtain ⟨u, hu⟩ := exec_next (handlerOf q) (s.enterHandler q)
  have hkept := (handler_effect hu).sameHost
  have hwaiting : u.waiting = some w := hkept.waiting.trans hw
  rw [step_of_some hq, hu] at hstep
  cases hstep
  refine ⟨u, hu, hwaiting, hkept.status, ?_⟩
  rw [State.leaveHandler_of_some hwaiting]
  have branch (c : Prop) [Decidable c] (a b : State) :
      if c then (if c then a else b) = a else (if c then a else b) = b := by
    split
    · rfl
    · rfl
  cases w <;> exact branch _ _ _

end Sys2Proof.Machine

/-! ### FAULT only gains bits, and memory stays canonical (60_exceptions.md R168; 20_memory.md R44). -/

namespace Sys2Proof.Machine

/-- From `s` to `t` FAULT gains bits and loses none. -/
def State.GainsFaults (s t : State) : Prop := ∃ m, t.fault = s.fault ||| m

theorem State.GainsFaults.of_eq {s t : State} (h : t.fault = s.fault) : s.GainsFaults t :=
  ⟨0, by rw [h, BitVec.ofNat_eq_ofNat, BitVec.or_zero]⟩

theorem State.GainsFaults.of_ite {s t : State} {c : Prop} [Decidable c] {m : BitVec 6}
    (h : t.fault = if c then s.fault ||| m else s.fault) : s.GainsFaults t := by
  split at h
  · exact ⟨m, h⟩
  · exact .of_eq h

theorem State.GainsFaults.hasFault {s t : State} (h : s.GainsFaults t) {k : FaultBit} (hk : s.hasFault k = true) :
    t.hasFault k = true := by
  obtain ⟨m, hm⟩ := h
  rw [State.hasFault] at hk
  rw [State.hasFault, hm, BitVec.getLsbD_or, hk, Bool.true_or]

/-! What the operations with a fault of their own do to FAULT. -/

theorem State.checkReload_fault (s : State) :
    s.checkReload.fault = if s.dma.busy then s.fault ||| 0b001000#6 else s.fault := by
  unfold State.checkReload
  split <;> rfl

theorem State.checkGuard_fault (s : State) (a : Addr) (n : Nat) :
    (s.checkGuard a n).fault = if s.touchesGuard a n then s.fault ||| 0b000010#6 else s.fault := by
  unfold State.checkGuard
  split <;> rfl

theorem State.rewind_fault (s : State) :
    s.rewind.fault = if s.ldpend && s.dma.busy then s.fault ||| 0b010000#6 else s.fault := by
  cases h : s.ldpend with
  | true =>
    rw [State.rewind_of_ldpend h]
    rfl
  | false =>
    rw [State.rewind_of_not_ldpend h]
    rfl

theorem State.readWindow_fault (s : State) (off : BitVec 8) (w : Width) :
    (s.readWindow off w).fault = if registerShape off w then s.fault else s.fault ||| 0b100000#6 := by
  unfold State.readWindow
  split <;> rfl

theorem State.vgaLine_fault (s : State) :
    s.vgaLine.fault = if s.armed && s.dma.busy then s.fault ||| 0b001000#6 else s.fault := by
  have hline : s.vgaLine.fault = s.vgaTransfer.fault := by simp [State.vgaLine]
  rw [hline, State.vgaTransfer]
  cases s.armed with
  | true => exact s.checkReload_fault
  | false => rfl

theorem State.compositeLine_fault (s : State) (p : CompositeParams) (len : Nat) :
    (s.compositeLine p len).fault = if s.dma.busy then s.fault ||| 0b001000#6 else s.fault := by
  simp only [State.compositeLine, State.compositeAdvance_fault, State.fillLine_fault]
  exact s.checkReload_fault

theorem State.rasterLine_gainsFaults (s : State) : s.GainsFaults s.rasterLine := by
  unfold State.rasterLine
  split
  · exact .of_eq rfl
  · exact .of_ite s.vgaLine_fault
  · exact .of_ite s.vgaLine_fault
  · exact .of_ite (s.compositeLine_fault ..)
  · exact .of_ite (s.compositeLine_fault ..)

theorem HandlerEffect.gainsFaults {s t : State} {q : Source} (h : HandlerEffect s q t) : s.GainsFaults t := by
  cases h with
  | lock => exact .of_eq rfl
  | raster => exact s.rasterLine_gainsFaults
  | rewind => exact .of_ite s.rewind_fault
  | complete => exact .of_eq rfl

theorem CommandEffect.gainsFaults {s t : State} {i : Instr} (h : CommandEffect s i t) : s.GainsFaults t := by
  cases h with
  | start h => exact .of_eq (by cases h <;> simp)
  | pixelFault => exact ⟨_, rfl⟩
  | _ => exact .of_eq (by simp)

theorem exec_gainsFaults {i : Instr} {s t : State} (h : exec i s = .next t) : s.GainsFaults t :=
  exec_cases h (fun _ h => h.gainsFaults) (fun h => h.gainsFaults)

theorem AccessEffect.gainsFaults {s t : State} (h : AccessEffect s t) : s.GainsFaults t := by
  cases h with
  | readWindow off w =>
    have hfault := s.readWindow_fault off w
    split at hfault
    · exact .of_eq hfault
    · exact ⟨_, hfault⟩
  | command c hd h => exact exec_gainsFaults h
  | badShape => exact ⟨_, rfl⟩
  | writeMemory a w v => exact .of_ite ((State.store_fault ..).trans (s.checkGuard_fault a w.bytes))
  | writeAlias a v => exact .of_ite ((State.store_fault ..).trans (s.checkGuard_fault (aliasByte a) 1))
  | _ => exact .of_eq (by simp)

/-- Settles O12: each part of a step only adds bits to FAULT. -/
theorem faultBitsAreSticky : Obligations.FaultBitsAreSticky := by
  unfold Obligations.FaultBitsAreSticky
  intro s t k hstep hk
  refine step_keeps (Inv := fun s => s.hasFault k = true) (fun _ _ h => h) (fun _ _ _ h => h) ?run ?leave ?tick ?access
    hk hstep
  case run => exact fun i s t hk h => (exec_gainsFaults h).hasFault hk
  case leave => exact fun s hk => (State.GainsFaults.of_eq s.leaveHandler_fault).hasFault hk
  case tick => exact fun s hk => (State.GainsFaults.of_ite s.tick_fault).hasFault hk
  case access => exact fun s t hk h _ => h.gainsFaults.hasFault hk

/-! Memory. -/

@[simp] theorem State.writeMemory_mem (s : State) (a : Addr) (w : Width) (v : Word) :
    (s.writeMemory a w v).mem = s.mem.store a w.bytes (lowBytes v w.bytes) := by
  simp [State.writeMemory]

@[simp] theorem State.writeAlias_mem (s : State) (a : Addr) (v : Word) : (s.writeAlias a v).mem =
    s.mem.store (aliasByte a) 1 (setBit (s.byteAt (aliasByte a)) (aliasBit a) (v.getLsbD 0)).toNat := by
  simp [State.writeAlias]

theorem State.memoryInv_of_eq {s t : State} (hs : s.MemoryInv) (h : t.mem = s.mem) : t.MemoryInv := by
  rw [State.MemoryInv, h]
  exact hs

theorem State.allocated_memoryInv {s : State} (hs : s.MemoryInv) (mode : Mode) (w h : Nat) :
    (s.allocated mode w h).MemoryInv :=
  Memory.clear_wf hs _ _

theorem StartEffect.memoryInv {s t : State} (h : StartEffect s t) (hs : s.MemoryInv) : t.MemoryInv := by
  cases h with
  | rejected | outOfMemory => exact State.memoryInv_of_eq hs s.stop_mem
  | startVga | startComposite =>
    refine State.memoryInv_of_eq (State.allocated_memoryInv ?_ _ _ _) (State.startMode_mem _ _)
    exact State.memoryInv_of_eq hs s.stop_mem

theorem CommandEffect.memoryInv {s t : State} {i : Instr} (h : CommandEffect s i t) (hs : s.MemoryInv) :
    t.MemoryInv := by
  cases h with
  | start h => exact h.memoryInv hs
  | setPixel =>
    rw [State.MemoryInv, State.setStatus_mem, State.store_mem]
    exact Memory.store_wf hs _ _ _
  | _ => exact State.memoryInv_of_eq hs (by simp)

theorem AccessEffect.memoryInv {s t : State} (h : AccessEffect s t) (hs : s.MemoryInv) : t.MemoryInv := by
  cases h with
  | command c hd h =>
    obtain ⟨-, hhost⟩ := decodeCmd_ok hd
    exact (command_effect hhost h).memoryInv hs
  | writeMemory a w v =>
    rw [State.MemoryInv, State.writeMemory_mem]
    exact Memory.store_wf hs _ _ _
  | writeAlias a v =>
    rw [State.MemoryInv, State.writeAlias_mem]
    exact Memory.store_wf hs _ _ _
  | _ => exact State.memoryInv_of_eq hs (by simp)

/-- Settles O40: only a store and the clearing of an allocation change memory, and both keep the canonical form. -/
theorem memoryStaysCanonical : Obligations.MemoryStaysCanonical := by
  unfold Obligations.MemoryStaysCanonical
  intro s t hs hstep
  refine step_keeps (Inv := State.MemoryInv) (fun _ _ h => h) (fun _ _ _ h => h) ?run ?leave ?tick ?access hs hstep
  case run =>
    exact fun i s t hs h =>
      exec_cases h (fun _ h => State.memoryInv_of_eq hs h.sameHost.mem) (fun h => h.memoryInv hs)
  case leave => exact fun s hs => State.memoryInv_of_eq hs s.leaveHandler_mem
  case tick => exact fun s hs => State.memoryInv_of_eq hs s.tick_mem
  case access => exact fun s t hs h _ => h.memoryInv hs

end Sys2Proof.Machine

/-! ### What the solver answers, and the bounds of every result (40_modeline.md R77 to R84). -/

namespace Sys2Proof.Machine

theorem evenDown_eq (v : Nat) : evenDown v = 2 * (v / 2) := by
  unfold evenDown
  omega

theorem burstPx_eq (color : Bool) (w : Nat) :
    burstPx color w = if color then w else ((w + 31) / 32 * 2 + 2) * 16 := rfl

theorem solve_of_search_none {margin w h : Nat} {color : Bool} {win : Window} (hnone : search w h win = none) :
    solve margin w h color win = none := by
  rw [solve, hnone]
  rfl

/-- The two tests of `finish` that can fail: a horizontal scale of 1 is not in the search space (R78). -/
theorem solve_of_search_some {margin w h : Nat} {color : Bool} {win : Window} {c : Candidate}
    (hc : search w h win = some c) : solve margin w h color win =
      if color = true ∧ c.xscale < 6 ∨ htotalClk w c.xscale < hsStartClk margin color w c.xscale + 2 then none
      else some (timingOf margin color w h c) := by
  obtain ⟨hx, -⟩ := search_some hc
  rw [solve, hc, Option.bind_some, finish, if_neg (by omega)]
  by_cases hcolor : color = true ∧ c.xscale < 6
  · exact (if_pos (by simpa using hcolor)).trans (if_pos (.inl hcolor)).symm
  · rw [if_neg (c := _ = true) (by simpa using hcolor)]
    simp only [hcolor, false_or]

/-- The properties of a result of the solver (R75, R77 to R81); `solve_valid` gives them to each. -/
structure ValidTiming (margin w h : Nat) (color : Bool) (win : Window) (t : Timing) : Prop where
  xscale : 2 ≤ t.xscale ∧ t.xscale ≤ 16
  colorXscale : color = true → 6 ≤ t.xscale
  yscale : 1 ≤ t.yscale ∧ t.yscale ≤ 8
  width : w < t.hss + 1 ∧ t.htotal ≤ 2 * ((5 * w + 4) / 8)
  horizontal : t.hss < t.hse ∧ t.hse < t.htotal
  picture : h < t.vss
  vertical : t.vss < t.vse ∧ t.vse < t.vtotal
  lines : t.vtotal < 2 ^ 16
  lineFrequency : win.hmin.toNat * (t.xscale * t.htotal) < Config.fMck ∧
    Config.fMck < win.hmax.toNat * (t.xscale * t.htotal)
  frameFrequency : win.vmin.toNat * (t.xscale * t.htotal * t.vtotal * t.yscale) < Config.fMck ∧
    Config.fMck < win.vmax.toNat * (t.xscale * t.htotal * t.vtotal * t.yscale)
  pulse : 2 ≤ t.hsWidthClk ∧ t.hsWidthClk ≤ t.lockOffClk
  burst : burstPx color w * t.xscale + margin ≤ t.hsStartClk + 1
  start : t.hss * t.xscale ≤ t.hsStartClk + 1
  lineClocks : t.hsStartClk + t.lockOffClk = t.htotalClk
  total : t.htotalClk ≤ t.htotal * t.xscale

theorem solve_valid {margin w h : Nat} {color : Bool} {win : Window} {t : Timing}
    (hs : solve margin w h color win = some t) : ValidTiming margin w h color win t := by
  obtain ⟨c, hc, rfl, hcolor, hfinish⟩ := solve_some hs
  obtain ⟨hx2, hx16, -, hy1, hy8, hacc⟩ := search_some hc
  obtain ⟨⟨hhse, hvse, hlines⟩, hline, hframe⟩ := accepts_iff.1 hacc
  obtain ⟨hstart, hstart', -⟩ :=
    evenDown_spec (max ((hGeometry w).hss * c.xscale) (burstPx color w * c.xscale + margin))
  have hsync : 1 ≤ (hGeometry w).hse - (hGeometry w).hss := by
    simp only [hGeometry]
    omega
  have hpulse : 2 ≤ ((hGeometry w).hse - (hGeometry w).hss) * c.xscale :=
    hx2.trans (Nat.le_mul_of_pos_left _ hsync)
  have heven := evenDown_spec ((hGeometry w).htotal * c.xscale)
  have hwidth := evenDown_spec (min (((hGeometry w).hse - (hGeometry w).hss) * c.xscale)
    (htotalClk w c.xscale - hsStartClk margin color w c.xscale))
  refine
    { xscale := ⟨hx2, hx16⟩, colorXscale := hcolor, yscale := ⟨hy1, hy8⟩, width := ⟨?_, le_rfl⟩
      horizontal := ⟨?_, hhse⟩, picture := ?_, vertical := ⟨?_, hvse⟩, lines := hlines, lineFrequency := hline
      frameFrequency := hframe, pulse := ⟨?_, ?_⟩, burst := ?_, start := ?_, lineClocks := ?_, total := ?_ }
  all_goals simp only [timingOf]
  case refine_1 => simp only [hGeometry]; omega
  case refine_2 => omega
  case refine_3 => simp only [vGeometry]; omega
  case refine_4 => simp only [vGeometry]; omega
  case refine_5 => omega
  case refine_6 => omega
  case refine_7 => rw [hsStartClk]; omega
  case refine_8 => rw [hsStartClk]; omega
  case refine_9 => omega
  case refine_10 => rw [htotalClk]; omega

/-- The record in the terms of R72, R73, R78 and R79. -/
theorem timingOf_eq (margin w h : Nat) (color : Bool) (c : Candidate) :
    let htotal := 2 * ((5 * w + 4) / 8)
    let hb := htotal - w
    let hss := w + hb / 10
    let hse := hss + max (6 * hb / 10) 1
    let vtotal := 25 * h / 24 + c.slack
    let vb := vtotal - h
    let vss := h + max (2 * vb / 9) 1
    let total := 2 * (htotal * c.xscale / 2)
    let start := 2 * (max (hss * c.xscale) (burstPx color w * c.xscale + margin) / 2)
    timingOf margin color w h c =
      { xscale := c.xscale, yscale := c.yscale, htotal := htotal, hss := hss, hse := hse
        vtotal := vtotal, vss := vss, vse := vss + max (vb / 22) 1
        htotalClk := total, hsStartClk := start
        hsWidthClk := 2 * (min ((hse - hss) * c.xscale) (total - start) / 2), lockOffClk := total - start
        flineHz := 84000000 / (c.xscale * htotal)
        fframeMhz := 1000 * 84000000 / (c.xscale * htotal * vtotal * c.yscale), cycle := 0 } := by
  simp only [timingOf, hsStartClk, htotalClk, evenDown_eq]
  rfl

/-- Settles O28: the answer by what the search finds, its properties by `solve_valid`. -/
theorem solverResultsAreValid : Obligations.SolverResultsAreValid := by
  unfold Obligations.SolverResultsAreValid
  intro margin w h color win
  refine ⟨solve_of_search_none, fun c hc => ?answer, fun tim hmin hmax hheight hs => ?properties⟩
  case answer =>
    intro htotal hb hss hse vtotal vb vss burst total start fails
    have htest : (color = true ∧ c.xscale < 6 ∨ htotalClk w c.xscale < hsStartClk margin color w c.xscale + 2) ↔
        fails := by
      rw [htotalClk, hsStartClk, evenDown_eq, evenDown_eq, burstPx_eq]
      exact Iff.rfl
    rw [solve_of_search_some hc, timingOf_eq, burstPx_eq]
    exact ⟨fun hf => if_pos (htest.2 hf), fun hf => if_neg (mt htest.1 hf)⟩
  case properties =>
    have hv := solve_valid hs
    obtain ⟨hx2, hx16⟩ := hv.xscale
    have hstart := hv.start
    have hhss : 16 ≤ tim.hss * tim.xscale := Nat.mul_le_mul (show 8 ≤ tim.hss by have := hv.width; omega) hx2
    have hclocks := hv.lineClocks
    exact ⟨by omega, hx2, hx16, hv.colorXscale, hv.yscale.1, hv.yscale.2, hv.horizontal.1, hv.horizontal.2, hv.picture,
      hv.vertical.1, hv.vertical.2, hv.lines, hv.lineFrequency.1, hv.lineFrequency.2, hv.frameFrequency.1,
      hv.frameFrequency.2, hv.pulse.1, hv.pulse.2, by omega, hv.burst, hclocks⟩

end Sys2Proof.Machine

/-! ### The size of every result, and the worked example (40_modeline.md R82, R84). -/

namespace Sys2Proof.Machine

/-- The clocks of a line lie from 20 to 16,000 (R72, R78). -/
theorem ValidTiming.line_bounds {margin w h : Nat} {color : Bool} {win : Window} {t : Timing}
    (hv : ValidTiming margin w h color win t) (hmin : 8 ≤ w) (hmax : w ≤ 800) :
    20 ≤ t.xscale * t.htotal ∧ t.htotal * t.xscale ≤ 16000 := by
  obtain ⟨hx2, hx16⟩ := hv.xscale
  obtain ⟨hhss, htotal⟩ := hv.width
  obtain ⟨hsync, hend⟩ := hv.horizontal
  exact ⟨Nat.mul_le_mul hx2 (by omega : 10 ≤ t.htotal), Nat.mul_le_mul (by omega : t.htotal ≤ 1000) hx16⟩

/-- The frequencies of a result are below 2^32: a line has at least 20 clocks, and a frame at least a line's (R79). -/
theorem solve_frequencies_lt {margin w h : Nat} {color : Bool} {win : Window} {t : Timing} (hmin : 8 ≤ w)
    (hmax : w ≤ 800) (hs : solve margin w h color win = some t) : t.flineHz < 2 ^ 32 ∧ t.fframeMhz < 2 ^ 32 := by
  have hv := solve_valid hs
  obtain ⟨hline, -⟩ := hv.line_bounds hmin hmax
  obtain ⟨hvse, hvtotal⟩ := hv.vertical
  have hframe : 20 ≤ t.xscale * t.htotal * t.vtotal * t.yscale :=
    (hline.trans (Nat.le_mul_of_pos_right _ (by omega))).trans (Nat.le_mul_of_pos_right _ hv.yscale.1)
  obtain ⟨c, -, rfl, -⟩ := solve_some hs
  constructor
  · exact (Nat.div_le_div_left hline (by decide)).trans_lt (by decide)
  · exact (Nat.div_le_div_left hframe (by decide)).trans_lt (by decide)

/-- Settles O30: the counts are bounded by the line's clocks and by `vtotal`, the frequencies by
`solve_frequencies_lt`. -/
theorem solverResultsFitRegisters : Obligations.SolverResultsFitRegisters := by
  unfold Obligations.SolverResultsFitRegisters
  intro margin w h color win tim hmin hmax _ hs v hmem
  have hv := solve_valid hs
  obtain ⟨-, hx16⟩ := hv.xscale
  obtain ⟨-, hy8⟩ := hv.yscale
  obtain ⟨-, htotal⟩ := hv.width
  obtain ⟨hsync, hend⟩ := hv.horizontal
  obtain ⟨hvss, hvse⟩ := hv.vertical
  have hlines := hv.lines
  obtain ⟨-, hpulse⟩ := hv.pulse
  have hclocks := hv.lineClocks
  have hline := hv.total
  obtain ⟨-, hbound⟩ := hv.line_bounds hmin hmax
  obtain ⟨hfline, hfframe⟩ := solve_frequencies_lt hmin hmax hs
  have hcycle : tim.cycle = 0 := by
    obtain ⟨c, -, rfl, -⟩ := solve_some hs
    rfl
  simp only [List.mem_cons, List.not_mem_nil, or_false] at hmem
  rcases hmem with rfl | rfl | rfl | rfl | rfl | rfl | rfl | rfl | rfl | rfl | rfl | rfl | rfl | rfl | rfl
  case inr.inr.inr.inr.inr.inr.inr.inr.inr.inr.inr.inr.inl => exact hfline
  case inr.inr.inr.inr.inr.inr.inr.inr.inr.inr.inr.inr.inr.inl => exact hfframe
  all_goals omega

/-! The request of the source's example, under the default window: a line of 2,800 clocks at scale 7. -/

theorem search_sourceExample : search 320 240 ⟨27000, 83000, 57, 70⟩ = some ⟨7, 0, 2⟩ := by decide +kernel

theorem hsStartClk_sourceExample (margin : Nat) : hsStartClk margin true 320 7 = evenDown (max 2296 (2240 + margin)) :=
  rfl

/-- The pulse of the example has its two clocks exactly up to the margin 559 (R78). -/
theorem solve_sourceExample (margin : Nat) : solve margin 320 240 true ⟨27000, 83000, 57, 70⟩ =
    if margin ≤ 559 then some (timingOf margin true 320 240 ⟨7, 0, 2⟩) else none := by
  rw [solve_of_search_some search_sourceExample, hsStartClk_sourceExample, evenDown_eq,
    show htotalClk 320 7 = 2800 from rfl, ← ite_not]
  exact if_congr (by dsimp only; omega) rfl rfl

/-- Settles O27: up to the margin 56 the sync start is that of the geometry. -/
theorem solverWorkedExample : Obligations.SolverWorkedExample := by
  unfold Obligations.SolverWorkedExample
  intro margin hmargin
  have hstart : hsStartClk margin true 320 7 = 2296 := by
    rw [hsStartClk_sourceExample, evenDown_eq]
    omega
  rw [solve_sourceExample, if_pos (by omega), timingOf, hstart]
  rfl

end Sys2Proof.Machine

/-! ### BEGIN: where it fails, in the order of its steps, and what it starts (45_lifecycle.md R154, R155). -/

namespace Sys2Proof.Machine

theorem exec_begin (sel : Nat) (s : State) : exec (.begin sel) s = .next (s.beginWith Config.hmarginClk sel) := rfl

/-- BEGIN with an unsupported SEL stops the machine (R154 step 2). -/
theorem State.beginWith_of_none {sel : Nat} (h : beginMode sel = none) (s : State) (margin : Nat) :
    s.beginWith margin sel = s.stop.setStatus statusBadMode := by
  rw [State.beginWith, h]

theorem State.beginWith_of_some {sel : Nat} {mode : Mode} (h : beginMode sel = some mode) (s : State) (margin : Nat) :
    s.beginWith margin sel = s.stop.beginVga margin mode s.argWidth s.argHeight := by
  rw [State.beginWith, h]

section
variable (s : State) (margin : Nat) (mode : Mode) {w h : Nat}

/-- Step 3: a size out of range (R154). -/
theorem State.beginVga_of_bad_size (hsize : w < 8 ∨ 800 < w ∨ h < 1) :
    s.beginVga margin mode w h = s.setStatus statusBadMode :=
  if_pos hsize

/-- Step 4: Color is limited to 380 rows (R154). -/
theorem State.beginVga_of_too_tall (hmin : 8 ≤ w) (hmax : w ≤ 800) (htall : 380 < h) :
    s.beginVga margin .color w h = s.setStatus statusTooTall := by
  have hsize : ¬(w < 8 ∨ 800 < w ∨ h < 1) := by omega
  exact (if_neg hsize).trans (if_pos ⟨rfl, htall⟩)

/-- Steps 5 to 7: with a size in range BEGIN asks the solver and allocates (R154). -/
theorem State.beginVga_of_size (hmin : 8 ≤ w) (hmax : w ≤ 800) (hheight : 1 ≤ h) (hcolor : mode = .color → h ≤ 380)
    {answer : Option Timing} (hsolve : solve margin w h (mode == .color) s.win = answer) :
    s.beginVga margin mode w h =
      answer.elim (s.setStatus statusNoTiming) (s.allocateAndStart mode w h) := by
  have hsize : ¬(w < 8 ∨ 800 < w ∨ h < 1) := by omega
  have htall : ¬(mode = .color ∧ 380 < h) := fun ⟨hc, ht⟩ => absurd (hcolor hc) (by omega)
  rw [← hsolve]
  refine (if_neg hsize).trans ((if_neg htall).trans ?_)
  cases solve margin w h (mode == .color) s.win <;> rfl

end

theorem beginMode_of_le {sel : Nat} (h : sel ≤ 2) : beginMode sel = some (if sel = 2 then .color else .mono) := by
  interval_cases sel <;> rfl

theorem mode_eq_color_iff (sel : Nat) : (if sel = 2 then Mode.color else .mono) = .color ↔ sel = 2 := by
  split <;> simp [*]

/-- Settles O20: each failure by the step of BEGIN that finds it. -/
theorem beginRejectsInOrder : Obligations.BeginRejectsInOrder := by
  unfold Obligations.BeginRejectsInOrder
  intro s sel w h mode
  simp only [exec_begin]
  refine ⟨fun hsel => ?unsupported, fun hsel hsize => ?badSize, fun hsel hmin hmax hheight =>
    ⟨fun hcolor htall => ?tooTall, fun hrows => ⟨trivial, fun margin => ⟨fun hnone => ?noTiming, fun tim hsome hbig =>
      ?noMemory⟩⟩⟩⟩
  case unsupported =>
    have hnone : beginMode sel = none := by
      unfold beginMode
      rw [if_neg (by omega), if_neg (by omega)]
    exact congrArg _ (s.beginWith_of_none hnone _)
  all_goals
    have hmode : beginMode sel = some mode := beginMode_of_le hsel
    have hcolor' : mode = .color ↔ sel = 2 := mode_eq_color_iff sel
    rw [s.beginWith_of_some hmode]
  case badSize =>
    exact congrArg _ (s.stop.beginVga_of_bad_size _ mode (hsize.imp_right (Or.imp_right Nat.lt_one_iff.2)))
  case tooTall =>
    rw [hcolor'.2 hcolor]
    exact congrArg _ (s.stop.beginVga_of_too_tall _ hmin hmax htall)
  all_goals
    have hask : (mode == .color) = (sel == 2) := by
      rw [Bool.eq_iff_iff, beq_iff_eq, beq_iff_eq, hcolor']
    have hsize {answer : Option Timing} (hsolve : solve margin w h (sel == 2) s.win = answer) :=
      s.stop.beginVga_of_size margin mode hmin hmax hheight (fun hc => hrows (hcolor'.1 hc))
        (show solve margin w h (mode == .color) s.stop.win = answer by rw [hask, s.stop_win, hsolve])
  case noTiming => exact hsize hnone
  case noMemory =>
    exact (hsize hsome).trans (State.allocateAndStart_of_not_fits (decide_eq_false (not_le.2 hbig)) s.stop tim)

end Sys2Proof.Machine

/-! ### BEGIN starts a VGA mode (45_lifecycle.md R154 steps 6 and 7; 42_sequencer.md R99 to R105). -/

namespace Sys2Proof.Machine

/-- BEGIN with a supported request that the solver and the allocator meet starts the mode (R154). -/
theorem State.beginWith_starts {s : State} {margin sel : Nat} {mode : Mode} {tim : Timing}
    (hmode : beginMode sel = some mode) (hmin : 8 ≤ s.argWidth) (hmax : s.argWidth ≤ 800) (hheight : 1 ≤ s.argHeight)
    (hcolor : mode = .color → s.argHeight ≤ 380)
    (hsolve : solve margin s.argWidth s.argHeight (mode == .color) s.win = some tim)
    (hfits : bufferSize mode s.argWidth s.argHeight ≤ Config.fbCapacityBytes) : s.beginWith margin sel =
      (State.allocated { s.stop with tim } mode s.argWidth s.argHeight).startMode mode := by
  rw [s.beginWith_of_some hmode,
    s.stop.beginVga_of_size margin mode hmin hmax hheight hcolor (by rw [s.stop_win, hsolve])]
  exact State.allocateAndStart_of_fits (decide_eq_true hfits) s.stop tim

theorem ValidTiming.two_le_htotalClk {margin w h : Nat} {color : Bool} {win : Window} {t : Timing}
    (hv : ValidTiming margin w h color win t) : 2 ≤ t.htotalClk := by
  obtain ⟨hpulse, hlock⟩ := hv.pulse
  have hclocks := hv.lineClocks
  omega

theorem State.armPwm_of_isVga (s : State) {mode : Mode} (h : mode.isVga = true) :
    s.armPwm mode = ⟨true, 0, s.tim.htotalClk, s.tim.hsWidthClk, s.cfg.getLsbD 0⟩ := by
  rw [State.armPwm, h]
  rfl

theorem State.armDma_of_isVga (s : State) {mode : Mode} (h : mode.isVga = true) : s.armDma mode =
    { Dma.reset with
      src := s.fb.base
      unit := if mode = .mono then 2 else 1
      dst := if mode = .mono then .spi else .port
      irq := mode == .mono } := by
  rw [s.armDma_of_ne_off (by rintro rfl; cases h), h]
  rfl

theorem State.armGpio_of_isVga (s : State) {mode : Mode} (h : mode.isVga = true) : s.armGpio mode =
    ⟨.pwm, .out, s.cfg.getLsbD 1, if mode = .mono then .gpioLow else .hiZ, if mode = .mono then .hiZ else .port⟩ := by
  rw [s.armGpio_of_ne_off (by rintro rfl; cases h), h]
  rfl

theorem bufferOf_base {mode : Mode} (h : mode ≠ .off) (w h' : Nat) (base : Addr) :
    (bufferOf mode w h' base).base = base := by
  cases mode
  case off => exact absurd rfl h
  all_goals rfl

/-- Settles O19: the machine is the start of the mode after the allocation, and its parts are the rows of arm for a VGA
mode. -/
theorem beginStartsVgaMode : Obligations.BeginStartsVgaMode := by
  unfold Obligations.BeginStartsVgaMode
  intro s sel
  refine ⟨exec_begin sel s, fun margin mode tim hmode hmin hmax hheight hcolor hsolve hfits => ?_⟩
  have hsel : beginMode sel = some mode := by
    rcases hmode with ⟨rfl | rfl, rfl⟩ | ⟨rfl, rfl⟩ <;> rfl
  have hvga := isVga_of_beginMode hsel
  have hoff : mode ≠ .off := by
    rintro rfl
    cases hvga
  let stopped : State := { s.stop with tim }
  let u := stopped.allocated mode s.argWidth s.argHeight
  let base := drawBase stopped.draws (bufferSize mode s.argWidth s.argHeight)
  have hcfg : u.cfg = s.cfg := s.stop_cfg
  have hbase : u.fb.base = base := bufferOf_base hoff _ _ _
  have hpwm := u.armPwm_of_isVga hvga
  have hgpio := u.armGpio_of_isVga hvga
  have hdma := u.armDma_of_isVga hvga
  rw [hcfg] at hpwm hgpio
  rw [hbase] at hdma
  have hnvic := u.startMode_nvic mode
  rw [hvga] at hnvic
  rw [State.beginWith_starts hsel hmin hmax hheight hcolor hsolve hfits]
  refine ⟨base, rfl, rfl, rfl, rfl, rfl, fun x => ?bytes, hnvic, rfl, rfl, rfl, rfl, rfl, hvga, rfl, rfl,
    congrArg (BitVec.getLsbD · 1) hcfg, rfl, rfl, hpwm, rfl, rfl, drawCount_lt _ (solve_valid hsolve).two_le_htotalClk,
    ?dma, ?mono, ?color, hgpio, s.stop_win, hcfg, s.stop_fault, s.stop_args, s.stop_result,
    (armSlot_of_isVga hvga _).trans s.stop_cslot0, (armSlot_of_isVga hvga _).trans s.stop_cslot1⟩
  case bytes =>
    rw [State.startMode_fb, show u.fb.size = _ from bufferOf_size .., ← s.byteAt_stop x]
    exact stopped.byteAt_allocated _ _ _ x
  case dma =>
    rw [u.startMode_dma, hdma]
    rfl
  case mono | color =>
    rintro rfl
    exact ⟨rfl, rfl⟩

/-- A Color buffer of the source's example fits every capacity (R8). -/
theorem fits_sourceExample : bufferSize .color 320 240 ≤ Config.fbCapacityBytes :=
  Nat.le_add_right 76800 _

/-- Settles O23: the solver's answer by the margin, and then the start of the mode or the status of no timing. -/
theorem sourceColorExampleStarts : Obligations.SourceColorExampleStarts := by
  unfold Obligations.SourceColorExampleStarts
  intro s ha0 ha1 hwin
  refine ⟨_, exec_begin 2 s, ?_⟩
  have hw : s.argWidth = 320 := by rw [State.argWidth, ha0]; rfl
  have hh : s.argHeight = 240 := by rw [State.argHeight, ha1]; rfl
  have hsolve := solve_sourceExample Config.hmarginClk
  rw [← hwin, ← hw, ← hh] at hsolve
  split
  · rename_i hmargin
    rw [if_pos hmargin] at hsolve
    rw [State.beginWith_starts (mode := .color) rfl (by omega) (by omega) (by omega) (fun _ => by omega) hsolve
      (by rw [hw, hh]; exact fits_sourceExample), hw, hh]
    exact ⟨rfl, rfl, rfl, rfl, rfl, rfl, rfl, rfl⟩
  · rename_i hmargin
    rw [if_neg hmargin] at hsolve
    rw [s.beginWith_of_some (mode := .color) rfl, s.stop.beginVga_of_size Config.hmarginClk .color (by omega) (by omega)
      (by omega) (fun _ => by omega) (answer := none) (by rw [s.stop_win]; exact hsolve)]
    rfl

/-! ### A stop, END, and a BEGIN that fails (45_lifecycle.md R153, R155, R159, R165.3). -/

theorem State.stop_of_off {s : State} (h : s.life = .off) : s.stop = s :=
  if_pos h

theorem State.stop_of_running {s : State} (h : s.life = .running) : s.stop = s.stopRunning :=
  if_neg (by rw [h]; nofun)

/-- Settles O18: END while Running is the stop, field by field the reset record but for what a stop leaves. -/
theorem endReturnsToReset : Obligations.EndReturnsToReset := by
  unfold Obligations.EndReturnsToReset
  refine fun s => ⟨fun hoff => congrArg _ (if_pos hoff), fun hrunning => ?_⟩
  change Host.Outcome.next (if s.life = .off then s else s.stop.setStatus statusOk) = _
  rw [if_neg (by rw [hrunning]; nofun), State.stop_of_running hrunning]
  rfl

/-- What a stop leaves of a running mode is nothing (R153). -/
theorem State.stopRunning_offInv (s : State) : s.stopRunning.OffInv :=
  ⟨rfl, rfl, rfl, rfl, rfl, rfl, rfl, rfl, rfl, rfl, rfl, rfl, rfl⟩

theorem State.LifeInv.stop {s : State} (h : s.LifeInv) : s.stop.life = .off ∧ s.stop.OffInv := by
  cases hlife : s.life with
  | off =>
    rw [State.stop_of_off hlife]
    exact ⟨hlife, h.1 hlife⟩
  | running =>
    rw [State.stop_of_running hlife]
    exact ⟨rfl, s.stopRunning_offInv⟩

/-- STATE of a machine that is Off is 0 (10_state.md R19). -/
theorem State.OffInv.stateRegister {s : State} (h : s.OffInv) (hlife : s.life = .off) : s.stateRegister = 0#32 := by
  rw [State.stateRegister, hlife, h.mode, h.gpio, h.dma, h.vsync, h.ldpend, h.armed, h.synced]
  rfl

/-- A start that does not answer STATUS 0 leaves the stopped machine, but for STATUS. -/
theorem StartEffect.of_status_ne {s t : State} (h : StartEffect s t) (hinv : s.LifeInv) (hstatus : t.status ≠ 0#32) :
    t.life = .off ∧ t.OffInv := by
  obtain ⟨hlife, hoff⟩ := hinv.stop
  cases h with
  | rejected c hc => exact ⟨hlife, { hoff with }⟩
  | outOfMemory => exact ⟨hlife, { hoff with tim := rfl }⟩
  | startVga | startComposite => exact absurd rfl hstatus

/-- Settles O22: the machine is Off, and what Off leaves is the invariant of the stopped machine. -/
theorem failedBeginLeavesOff : Obligations.FailedBeginLeavesOff := by
  unfold Obligations.FailedBeginLeavesOff
  intro s t sel hinv hexec hstatus
  have heffect : StartEffect s t := hexec.elim exec_begin_effect exec_beginComposite_effect
  obtain ⟨hlife, hoff⟩ := heffect.of_status_ne hinv hstatus
  refine ⟨hlife, hoff.stateRegister hlife, ?_, fun q => ?_, hoff.fb, hoff.tim⟩
  · rw [hoff.nvic]
    rfl
  · rw [hoff.nvic, Nvic.line_reset]
    rfl

end Sys2Proof.Machine

/-! ### The lifecycle invariant (10_state.md R21, 45_lifecycle.md R165; 42_sequencer.md R101, R102). -/

namespace Sys2Proof.Machine

/-! What the host does to memory, the registers or its own WAIT leaves the mode that runs alone. -/

/-- From `s` to `t` nothing changes that the lifecycle and the raster invariants speak of; of the DMA channel at most
the units of a transfer that reads memory (20_memory.md R56). -/
structure State.KeepsMode (s t : State) : Prop where
  life : t.life = s.life
  mode : t.mode = s.mode
  tim : t.tim = s.tim
  fb : t.fb = s.fb
  line : t.line = s.line
  sub : t.sub = s.sub
  phase : t.phase = s.phase
  synced : t.synced = s.synced
  armed : t.armed = s.armed
  ldpend : t.ldpend = s.ldpend
  vsync : t.vsync = s.vsync
  cslot0 : t.cslot0 = s.cslot0
  cslot1 : t.cslot1 = s.cslot1
  pwm : t.pwm = s.pwm
  lt : t.lt = s.lt
  gpio : t.gpio = s.gpio
  nvic : t.nvic = s.nvic
  sleep : t.sleep = s.sleep
  dma : t.dma = { s.dma with flight := { s.dma.flight with units := t.dma.flight.units } }
  idle : s.dma.busy = false → t.dma = s.dma

theorem State.KeepsMode.of_store {s : State} (a : Addr) (n v : Nat) : s.KeepsMode (s.store a n v) := by
  have hdma : (s.store a n v).dma =
      { s.dma with flight := { s.dma.flight with units := (s.store a n v).dma.flight.units } } :=
    congrArg State.dma (s.store_changes a n v)
  have hidle (h : s.dma.busy = false) : (s.store a n v).dma = s.dma :=
    (State.store_dma_races_of_not_reads (s.readsMemory_eq_false_iff.2 (.inl h)) a n v).1
  refine ⟨?_, ?_, ?_, ?_, ?_, ?_, ?_, ?_, ?_, ?_, ?_, ?_, ?_, ?_, ?_, ?_, ?_, ?_, hdma, hidle⟩
  all_goals simp

theorem State.KeepsMode.trans {s t u : State} (h : s.KeepsMode t) (h' : t.KeepsMode u) : s.KeepsMode u where
  life := h'.life.trans h.life
  mode := h'.mode.trans h.mode
  tim := h'.tim.trans h.tim
  fb := h'.fb.trans h.fb
  line := h'.line.trans h.line
  sub := h'.sub.trans h.sub
  phase := h'.phase.trans h.phase
  synced := h'.synced.trans h.synced
  armed := h'.armed.trans h.armed
  ldpend := h'.ldpend.trans h.ldpend
  vsync := h'.vsync.trans h.vsync
  cslot0 := h'.cslot0.trans h.cslot0
  cslot1 := h'.cslot1.trans h.cslot1
  pwm := h'.pwm.trans h.pwm
  lt := h'.lt.trans h.lt
  gpio := h'.gpio.trans h.gpio
  nvic := h'.nvic.trans h.nvic
  sleep := h'.sleep.trans h.sleep
  dma := by
    rw [h'.dma, h.dma]
  idle hs := (h'.idle (by rw [h.idle hs]; exact hs)).trans (h.idle hs)

/-- An update that writes none of the fields, with the whole DMA channel left alone. -/
theorem State.KeepsMode.of_checkGuard {s : State} (a : Addr) (n : Nat) : s.KeepsMode (s.checkGuard a n) := by
  constructor <;> simp

theorem State.setStatus_keepsMode (s : State) (c : Word) : s.KeepsMode (s.setStatus c) := by
  constructor <;> simp

/-- Every access but a command keeps the mode. -/
theorem AccessEffect.cases_mode {s t : State} (h : AccessEffect s t) :
    (∃ i, CommandEffect s i t) ∨ s.KeepsMode t := by
  cases h with
  | command c hd h =>
    obtain ⟨-, hhost⟩ := decodeCmd_ok hd
    exact .inl ⟨_, command_effect hhost h⟩
  | writeMemory a w v => exact .inr ((State.KeepsMode.of_checkGuard a w.bytes).trans (.of_store ..))
  | writeAlias a v => exact .inr ((State.KeepsMode.of_checkGuard (aliasByte a) 1).trans (.of_store ..))
  | _ => exact .inr (by constructor <;> simp)

/-- A command starts a mode, stops the one that runs, or keeps it. -/
theorem CommandEffect.cases_mode {s t : State} {i : Instr} (h : CommandEffect s i t) :
    StartEffect s t ∨ t = s.stop.setStatus statusOk ∨ s.KeepsMode t := by
  cases h with
  | start h => exact .inl h
  | endRunning => exact .inr (.inl rfl)
  | setPixel => exact .inr (.inr ((State.KeepsMode.of_store ..).trans (State.setStatus_keepsMode ..)))
  | _ => exact .inr (.inr (by constructor <;> simp))

theorem State.leaveHandler_keepsMode (s : State) : s.KeepsMode s.leaveHandler := by
  constructor <;> simp

/-! Off. -/

theorem State.KeepsMode.offInv {s t : State} (h : s.KeepsMode t) (hs : s.OffInv) : t.OffInv where
  mode := h.mode.trans hs.mode
  tim := h.tim.trans hs.tim
  fb := h.fb.trans hs.fb
  nvic := h.nvic.trans hs.nvic
  dma := (h.idle (by rw [hs.dma]; rfl)).trans hs.dma
  gpio := h.gpio.trans hs.gpio
  pwmEn := (congrArg Pwm.en h.pwm).trans hs.pwmEn
  ltEn := (congrArg LineTimer.en h.lt).trans hs.ltEn
  armed := h.armed.trans hs.armed
  synced := h.synced.trans hs.synced
  ldpend := h.ldpend.trans hs.ldpend
  vsync := h.vsync.trans hs.vsync
  sleep := h.sleep.trans hs.sleep

/-- While Off a tick changes nothing: both timers are off and no transfer is in flight (43_scanline_vga.md R108). -/
theorem State.OffInv.tick {s : State} (h : s.OffInv) : s.tick = s := by
  have hbusy : s.dma.busy = false := by rw [h.dma]; rfl
  have hpwm : s.tickPwm = s := if_neg (by simp [h.pwmEn])
  have hlt : s.tickLt = s := if_neg (by simp [h.ltEn])
  have hdma : s.tickDma = s := by simp [State.tickDma, State.completes, hbusy]
  simp [State.tick, hpwm, hlt, hdma, State.raiseIf, State.raisesHc, State.raisesLt, State.raisesDma, State.completes,
    h.pwmEn, h.ltEn, hbusy]

/-- While Off nothing is served (R172). -/
theorem State.OffInv.nextEvent {s : State} (h : s.OffInv) : s.nextEvent = none :=
  s.nextEvent_eq_none_iff.2 (.inl (by rw [h.nvic]; rfl))

/-! Running. -/

/-- The parts of the controller that `RunningInv` speaks of: all but the pending bits. -/
def Nvic.SameSetup (n m : Nvic) : Prop :=
  m.global = n.global ∧ ∀ q, (m.line q).en = (n.line q).en ∧ (m.line q).prio = (n.line q).prio

/-- What keeps the set-up of the controller and the PWM but for its count keeps Running, if the timers' counts and the
line timer's period are as they must be. -/
theorem State.RunningInv.of_timers {s t : State} (h : s.RunningInv) (hmode : t.mode = s.mode) (htim : t.tim = s.tim)
    (hfb : t.fb = s.fb) (hnvic : s.nvic.SameSetup t.nvic) (hpwm : t.pwm = { s.pwm with cnt := t.pwm.cnt })
    (hcount : t.pwm.cnt < s.pwm.period) (hlten : t.lt.en = s.lt.en)
    (hperiod : t.lt.period = if t.synced then s.tim.htotalClk else s.tim.htotalClk - 1)
    (hltcount : t.lt.cnt < t.lt.period) : t.RunningInv := by
  obtain ⟨hglobal, hlines⟩ := hnvic
  obtain ⟨hltEn, hltPrio⟩ := hlines .lt
  obtain ⟨hhcEn, hhcPrio⟩ := hlines .hc
  obtain ⟨hdmaEn, hdmaPrio⟩ := hlines .dma
  obtain ⟨hprioLt, hprioHc, hprioDma⟩ := h.prio
  exact
    { mode := by rw [hmode]; exact h.mode
      valid := by rw [hfb]; exact h.valid
      global := hglobal.trans h.global
      ltEn := hltEn.trans h.ltEn
      hcEn := by rw [hmode]; exact hhcEn.trans h.hcEn
      dmaEn := by rw [hmode]; exact hdmaEn.trans h.dmaEn
      prio := ⟨hltPrio.trans hprioLt, hhcPrio.trans hprioHc, hdmaPrio.trans hprioDma⟩
      pwmEn := by rw [hpwm]; exact h.pwmEn
      timerEn := hlten.trans h.timerEn
      pwmPeriod := by rw [hpwm, htim]; exact h.pwmPeriod
      pwmCount := by rw [hpwm]; exact hcount
      timerPeriod := by rw [htim]; exact hperiod
      timerCount := hltcount }

/-- What leaves the timers and the lock as they are, and the set-up of the controller, keeps Running. -/
theorem State.RunningInv.of_same {s t : State} (h : s.RunningInv) (hmode : t.mode = s.mode) (htim : t.tim = s.tim)
    (hfb : t.fb = s.fb) (hnvic : s.nvic.SameSetup t.nvic) (hpwm : t.pwm = s.pwm) (hlt : t.lt = s.lt)
    (hsynced : t.synced = s.synced) : t.RunningInv :=
  h.of_timers hmode htim hfb hnvic (by rw [hpwm]) (by rw [hpwm]; exact h.pwmCount) (by rw [hlt])
    (by rw [hlt, hsynced]; exact h.timerPeriod) (by rw [hlt]; exact h.timerCount)

theorem Nvic.SameSetup.of_eq {n m : Nvic} (h : m = n) : n.SameSetup m := by
  subst h
  exact ⟨rfl, fun _ => ⟨rfl, rfl⟩⟩

theorem State.KeepsMode.runningInv {s t : State} (h : s.KeepsMode t) (hs : s.RunningInv) : t.RunningInv :=
  hs.of_same h.mode h.tim h.fb (.of_eq h.nvic) h.pwm h.lt h.synced

/-- A tick keeps each count below its period (43_scanline_vga.md R109, R111). -/
theorem State.RunningInv.tick {s : State} (h : s.RunningInv) : s.tick.RunningInv := by
  have hpwm := h.pwmCount
  have hlt := h.timerCount
  have hpwmTick := State.tick_pwm_of_pos (s := s) fun _ => by omega
  have hltTick := State.tick_lt_of_pos (s := s) fun _ => by omega
  rw [if_pos h.pwmEn] at hpwmTick
  rw [if_pos h.timerEn] at hltTick
  refine h.of_timers s.tick_mode s.tick_tim s.tick_fb s.tick_keeps ?_ ?_ ?_ ?_ ?_
  · rw [hpwmTick]
  · rw [hpwmTick]
    exact Nat.mod_lt _ (by omega)
  · rw [hltTick]
  · rw [hltTick, s.tick_synced]
    exact h.timerPeriod
  · rw [hltTick]
    exact Nat.mod_lt _ (by omega)

/-- At the lock the line timer takes the PWM's period (43_scanline_vga.md R114). -/
theorem State.lockStep_of_locks {s : State} (h : s.locks = true) :
    s.lockStep = { s with lt := { s.lt with period := s.pwm.period }, synced := true } := by
  rw [State.lockStep, h]
  rfl

theorem State.lockStep_of_not_locks {s : State} (h : s.locks = false) : s.lockStep = s := by
  rw [State.lockStep, h]
  rfl

/-- The lock step lengthens the line timer's period to the line's, if it changes it at all. -/
theorem State.RunningInv.lockStep {s : State} (h : s.RunningInv) : s.lockStep.RunningInv := by
  cases hlocks : s.locks with
  | true =>
    rw [State.lockStep_of_locks hlocks]
    have hperiod : s.lt.period ≤ s.pwm.period := by
      rw [h.timerPeriod, h.pwmPeriod]
      split <;> omega
    exact h.of_timers rfl rfl rfl (.of_eq rfl) rfl h.pwmCount rfl h.pwmPeriod (h.timerCount.trans_le hperiod)
  | false =>
    rw [State.lockStep_of_not_locks hlocks]
    exact h

theorem HandlerEffect.runningInv {s t : State} {q : Source} (h : HandlerEffect s q t) (hs : s.RunningInv) :
    t.RunningInv ∧ t.life = s.life := by
  cases h with
  | lock => exact ⟨hs.lockStep, rfl⟩
  | raster =>
    exact ⟨hs.of_same (by simp) (by simp) (by simp) (.of_eq (by simp)) (by simp) (by simp) (by simp), by simp⟩
  | rewind =>
    exact ⟨hs.of_same (by simp) (by simp) (by simp) (.of_eq (by simp)) (by simp) (by simp) (by simp), by simp⟩
  | complete => exact ⟨hs.of_same rfl rfl rfl (.of_eq rfl) rfl rfl rfl, rfl⟩

/-- A mode that starts with a line of at least 2 clocks in a valid buffer is Running (42_sequencer.md R99 to R105). -/
theorem State.startMode_runningInv {s : State} {mode : Mode} (hmode : mode ≠ .off) (hvalid : s.fb.valid = true)
    (hline : 2 ≤ s.tim.htotalClk) : (s.startMode mode).RunningInv where
  mode := hmode
  valid := hvalid
  global := rfl
  ltEn := rfl
  hcEn := rfl
  dmaEn := rfl
  prio := ⟨rfl, rfl, rfl⟩
  pwmEn := rfl
  timerEn := rfl
  pwmPeriod := rfl
  pwmCount := by change 0 < s.tim.htotalClk; omega
  timerPeriod := rfl
  timerCount := drawCount_lt _ hline

theorem bufferOf_valid {mode : Mode} (h : mode ≠ .off) (w h' : Nat) (base : Addr) :
    (bufferOf mode w h' base).valid = true := by
  cases mode
  case off => exact absurd rfl h
  all_goals rfl

theorem ne_off_of_isVga {mode : Mode} (h : mode.isVga = true) : mode ≠ .off := by
  rintro rfl
  cases h

theorem two_le_compositeTiming_htotalClk (std : Standard) : 2 ≤ (compositeTiming std).htotalClk := by
  cases std <;> decide

/-! The invariant. -/

theorem State.LifeInv.of_off {s : State} (hlife : s.life = .off) (h : s.OffInv) : s.LifeInv :=
  ⟨fun _ => h, fun hrunning => (nomatch hlife.symm.trans hrunning)⟩

theorem State.LifeInv.of_running {s : State} (hlife : s.life = .running) (h : s.RunningInv) : s.LifeInv :=
  ⟨fun hoff => (nomatch hlife.symm.trans hoff), fun _ => h⟩

theorem State.KeepsMode.lifeInv {s t : State} (h : s.KeepsMode t) (hs : s.LifeInv) : t.LifeInv := by
  obtain ⟨hoff, hrunning⟩ := hs
  exact ⟨fun hlife => h.offInv (hoff (h.life.symm.trans hlife)),
    fun hlife => h.runningInv (hrunning (h.life.symm.trans hlife))⟩

theorem State.LifeInv.tick {s : State} (hs : s.LifeInv) : s.tick.LifeInv := by
  cases hlife : s.life with
  | off =>
    rw [(hs.1 hlife).tick]
    exact hs
  | running => exact .of_running (s.tick_life.trans hlife) (hs.2 hlife).tick

theorem StartEffect.lifeInv {s t : State} (h : StartEffect s t) (hs : s.LifeInv) : t.LifeInv := by
  obtain ⟨hlife, hoff⟩ := hs.stop
  cases h with
  | rejected c hc => exact .of_off hlife { hoff with }
  | outOfMemory => exact .of_off hlife { hoff with tim := rfl }
  | startVga hmode hmin hmax hheight htim =>
    have hne := ne_off_of_isVga hmode
    exact .of_running rfl
      (State.startMode_runningInv hne (bufferOf_valid hne _ _ _) (solve_valid htim).two_le_htotalClk)
  | startComposite std =>
    have hne := modeOfStandard_ne_off std
    exact .of_running rfl
      (State.startMode_runningInv hne (bufferOf_valid hne _ _ _) (two_le_compositeTiming_htotalClk std))

theorem CommandEffect.lifeInv {s t : State} {i : Instr} (h : CommandEffect s i t) (hs : s.LifeInv) : t.LifeInv := by
  rcases h.cases_mode with h | rfl | h
  · exact h.lifeInv hs
  · obtain ⟨hlife, hoff⟩ := hs.stop
    exact .of_off hlife { hoff with }
  · exact h.lifeInv hs

theorem AccessEffect.lifeInv {s t : State} (h : AccessEffect s t) (hs : s.LifeInv) : t.LifeInv := by
  rcases h.cases_mode with ⟨i, h⟩ | h
  · exact h.lifeInv hs
  · exact h.lifeInv hs

/-- A handler runs while Running only: nothing is served while Off. -/
theorem State.LifeInv.running_of_nextEvent {s : State} (hs : s.LifeInv) {q : Source} (hq : s.nextEvent = some q) :
    s.life = .running ∧ s.RunningInv := by
  cases hlife : s.life with
  | off => exact nomatch (hs.1 hlife).nextEvent.symm.trans hq
  | running => exact ⟨rfl, hs.2 hlife⟩

/-- Settles O59: a handler and a tick keep Running, a tick changes nothing while Off, and a command starts a mode, stops
it or keeps it. -/
theorem lifecycleInvariantIsKept : Obligations.LifecycleInvariantIsKept := by
  unfold Obligations.LifecycleInvariantIsKept
  intro s t hs hstep
  cases step_effect hstep with
  | handler q hq hu =>
    obtain ⟨hlife, hrunning⟩ := hs.running_of_nextEvent hq
    have henter : (s.enterHandler q).RunningInv :=
      hrunning.of_same rfl rfl rfl (s.nvic.setPend_keeps q false) rfl rfl rfl
    obtain ⟨hafter, hsame⟩ := (handler_effect hu).runningInv henter
    exact .of_running ((State.leaveHandler_life _).trans (hsame.trans hlife))
      ((State.leaveHandler_keepsMode _).runningInv hafter)
  | tick => exact hs.tick
  | idle => exact State.LifeInv.tick (s := { s with inbox := _ }) (State.KeepsMode.lifeInv (by constructor <;> simp) hs)
  | access hq hf a rest hi ha he => exact he.lifeInv (State.KeepsMode.lifeInv (by constructor <;> simp) hs)

theorem run_succ_of_next {M : Host.Core} {s s' : M.State} (h : M.step s = .next s') (n : Nat) :
    M.run (n + 1) s = M.run n s' := by
  rw [Host.Core.run, h]

/-- Settles O26: the machine is Off, so nothing is served, the host is held and a tick changes nothing. -/
theorem waitActiveWhileOffNeverEnds : Obligations.WaitActiveWhileOffNeverEnds := by
  unfold Obligations.WaitActiveWhileOffNeverEnds
  intro s n hs hlife hwait
  have hoff := hs.1 hlife
  have hheld : s.hostFree = false := Bool.eq_false_iff.2 fun hf => nomatch (s.hostFree_iff.1 hf).2.symm.trans hwait
  have hstep : step s = .next s := by
    rw [step_of_no_move hoff.nextEvent (.inl hheld), hoff.tick]
  induction n with
  | zero => rfl
  | succ n ih => exact (run_succ_of_next (M := Sys2Proof.core) hstep n).trans ih

end Sys2Proof.Machine

/-! ### One VGA line, field by field (43_scanline_vga.md R116 to R119). -/

namespace Sys2Proof.Machine

/-- A state is the record of its fields; the rules for the fields of an operation then give its frame. -/
theorem State.eq_fields (s : State) : s = ⟨s.life, s.mode, s.tim, s.fb, s.line, s.sub, s.phase, s.frame, s.synced,
    s.armed, s.ldpend, s.vsync, s.vpol, s.cslot0, s.cslot1, s.win, s.status, s.result, s.args, s.cfg, s.fault, s.pwm,
    s.lt, s.dma, s.spi, s.port, s.gpio, s.nvic, s.dmaFirst, s.sleep, s.mem, s.inbox, s.waiting, s.busData, s.lastSent,
    s.draws, s.races⟩ := rfl

section
variable (s : State)

/-- The line after the repeat of `s`, before the frame wraps (R116 step (c)); `State.vgaLine_line` ties it to the
model. -/
def State.nextLine : BitVec 16 := if (s.sub + 1).toNat = s.tim.yscale then s.line + 1 else s.line

/-! The parts of the line body, one after the other. -/

theorem State.vgaAdvance_line (b : Bool) : (s.vgaAdvance b).line = s.nextLine := by
  simp only [State.vgaAdvance, State.nextLine]
  split <;> rfl

theorem State.vgaAdvance_sub (b : Bool) :
    (s.vgaAdvance b).sub = if (s.sub + 1).toNat = s.tim.yscale then 0 else s.sub + 1 := by
  simp only [State.vgaAdvance]
  split <;> rfl

theorem State.vgaAdvance_ldpend (b : Bool) :
    (s.vgaAdvance b).ldpend = (decide ((s.sub + 1).toNat ≠ s.tim.yscale) && (b && s.sub + 1 != 0)) := by
  simp only [State.vgaAdvance]
  split <;> rename_i hend
  · rw [decide_eq_false (not_not.2 hend)]
    rfl
  · rw [decide_eq_true hend]
    rfl

theorem State.vgaEndActive_armed :
    s.vgaEndActive.armed = (s.armed && decide (s.line.toNat ≠ s.fb.height)) := by
  unfold State.vgaEndActive
  split <;> simp [*]

theorem State.vgaEndFrame_line : s.vgaEndFrame.line = if s.line.toNat = s.tim.vtotal then 0 else s.line := by
  unfold State.vgaEndFrame
  split <;> rfl

theorem State.vgaEndFrame_armed : s.vgaEndFrame.armed = (decide (s.line.toNat = s.tim.vtotal) || s.armed) := by
  unfold State.vgaEndFrame
  split <;> simp [*]

theorem State.vgaEndFrame_frame :
    s.vgaEndFrame.frame = if s.line.toNat = s.tim.vtotal then s.frame + 1 else s.frame := by
  unfold State.vgaEndFrame
  split <;> rfl

theorem State.vgaEndFrame_dma : s.vgaEndFrame.dma =
    { s.dma with src := if s.line.toNat = s.tim.vtotal then s.fb.base else s.dma.src } := by
  unfold State.vgaEndFrame
  split <;> rfl

/-! The whole line. -/

theorem State.vgaLine_line : s.vgaLine.line = if s.nextLine.toNat = s.tim.vtotal then 0 else s.nextLine := by
  simp [State.vgaLine, State.vgaEndFrame_line, State.vgaAdvance_line, State.nextLine]

theorem State.vgaLine_sub : s.vgaLine.sub = if (s.sub + 1).toNat = s.tim.yscale then 0 else s.sub + 1 := by
  simp [State.vgaLine, State.vgaAdvance_sub]

theorem State.vgaLine_ldpend :
    s.vgaLine.ldpend = (decide ((s.sub + 1).toNat ≠ s.tim.yscale) && (s.armed && s.sub + 1 != 0)) := by
  simp [State.vgaLine, State.vgaAdvance_ldpend]

theorem State.vgaLine_armed : s.vgaLine.armed =
    (decide (s.nextLine.toNat = s.tim.vtotal) || s.armed && decide (s.nextLine.toNat ≠ s.fb.height)) := by
  simp [State.vgaLine, State.vgaEndFrame_armed, State.vgaEndActive_armed, State.vgaAdvance_line, State.nextLine]

theorem State.vgaLine_frame :
    s.vgaLine.frame = if s.nextLine.toNat = s.tim.vtotal then s.frame + 1 else s.frame := by
  simp [State.vgaLine, State.vgaEndFrame_frame, State.vgaAdvance_line, State.nextLine]

theorem State.vgaLine_dma : s.vgaLine.dma =
    { s.vgaTransfer.dma with src := if s.nextLine.toNat = s.tim.vtotal then s.fb.base else s.vgaTransfer.dma.src } := by
  simp [State.vgaLine, State.vgaEndFrame_dma, State.vgaAdvance_line, State.nextLine]

theorem State.vgaLine_vsync :
    s.vgaLine.vsync = (decide (s.tim.vss ≤ s.line.toNat) && decide (s.line.toNat < s.tim.vse)) := by
  simp [State.vgaLine, State.vgaVsync]

theorem State.vgaLine_gpio :
    s.vgaLine.gpio = { s.vgaTransfer.gpio with vlevel := s.vgaLine.vsync ^^ s.vpol } := by
  rw [s.vgaLine_vsync]
  simp [State.vgaLine, State.vgaVsync]

theorem State.vgaLine_draws : s.vgaLine.draws = s.vgaTransfer.draws := by
  simp [State.vgaLine]

/-- The frame of a VGA line: memory and every register but those named stay (R116 to R119). -/
theorem State.vgaLine_changes : s.vgaLine = { s with
    dma := s.vgaLine.dma, fault := s.vgaLine.fault, gpio := s.vgaLine.gpio, draws := s.vgaLine.draws
    vsync := s.vgaLine.vsync, sub := s.vgaLine.sub, line := s.vgaLine.line, ldpend := s.vgaLine.ldpend
    armed := s.vgaLine.armed, frame := s.vgaLine.frame } :=
  s.vgaLine.eq_fields.trans (by simp)

end

/-! The transfer that an armed line starts. -/

theorem State.vgaFlight_checkReload (s : State) : s.checkReload.vgaFlight = s.vgaFlight := by
  simp [State.vgaFlight]

/-- An armed line starts the transfer of `S.fb.xfer` bytes from the source (R117). -/
theorem State.vgaTransfer_of_armed {s : State} (h : s.armed = true) :
    s.vgaTransfer.dma = { s.dma with len := s.fb.xfer, busy := true, done := false, flight := s.vgaFlight } ∧
      s.vgaTransfer.gpio = { s.gpio with data := if s.mode = .mono then .spi else s.gpio.data } ∧
      s.vgaTransfer.draws = s.draws + 1 := by
  rw [State.vgaTransfer, if_pos h]
  simp [State.startTransfer, State.vgaFlight_checkReload, State.pinAtStart]

theorem State.vgaTransfer_of_not_armed {s : State} (h : s.armed = false) : s.vgaTransfer = s :=
  if_neg (by rw [h]; nofun)

/-- Unit `k` of a fetch is what memory holds at its own address (R121, R122). -/
theorem fetchUnits_getElem? (m : Memory) (a : Addr) (unit : Nat) {n k : Nat} (hk : k < n) :
    (fetchUnits m a unit n)[k]? = some (BitVec.ofNat 16 (m.load (a + BitVec.ofNat 32 (k * unit)) unit)) := by
  induction n generalizing a k with
  | zero => omega
  | succ n ih =>
    cases k with
    | zero => simp [fetchUnits]
    | succ k =>
      have haddr : a + BitVec.ofNat 32 unit + BitVec.ofNat 32 (k * unit) = a + BitVec.ofNat 32 ((k + 1) * unit) := by
        rw [BitVec.add_assoc, ← BitVec.ofNat_add, Nat.succ_mul, Nat.add_comm unit]
      rw [fetchUnits, List.getElem?_cons_succ, ih _ (by omega), haddr]

/-! The position, in a valid raster. -/

section
variable {s : State} (hinv : s.VgaInv)
include hinv

/-- The repeat counter does not overflow: at most 8 repeats are counted in 4 bits (40_modeline.md R81). -/
theorem State.VgaInv.sub_succ : (s.sub + 1).toNat = s.sub.toNat + 1 := by
  have hsub := hinv.sub
  obtain ⟨-, hmax⟩ := hinv.doubling
  rw [BitVec.toNat_add_of_lt (by change _ + 1 < _; omega)]
  rfl

theorem State.VgaInv.line_succ : (s.line + 1).toNat = s.line.toNat + 1 := by
  have hline := hinv.line
  have hlines := hinv.lines
  rw [BitVec.toNat_add_of_lt (by change _ + 1 < _; omega)]
  rfl

/-- A line double is pending after every repeat of an armed line but the last (R119). -/
theorem State.VgaInv.vgaLine_ldpend :
    s.vgaLine.ldpend = (decide (s.sub.toNat + 1 ≠ s.tim.yscale) && s.armed) := by
  have hpos : s.sub + 1 ≠ 0 := fun h => by
    have hsub := hinv.sub_succ
    rw [h] at hsub
    exact nomatch hsub
  rw [s.vgaLine_ldpend, hinv.sub_succ, bne_iff_ne.2 hpos, Bool.and_true]

/-- Below the last repeat the line stays, at the last it advances (R116; log 32). -/
theorem State.VgaInv.nextLine_toNat :
    s.nextLine.toNat = if s.sub.toNat + 1 = s.tim.yscale then s.line.toNat + 1 else s.line.toNat := by
  rw [State.nextLine, hinv.sub_succ, ← hinv.line_succ]
  split <;> rfl

/-- The frame wraps at the last repeat of the last line (R116). -/
theorem State.VgaInv.nextLine_eq_vtotal_iff :
    s.nextLine.toNat = s.tim.vtotal ↔ s.sub.toNat + 1 = s.tim.yscale ∧ s.line.toNat + 1 = s.tim.vtotal := by
  have hline := hinv.line
  rw [hinv.nextLine_toNat]
  split <;> omega

end

theorem exec_evLt_of_vga {s : State} (hmode : s.mode = .mono ∨ s.mode = .color) (hsynced : s.synced = true) :
    exec .evLt s = .next s.vgaLine := by
  change Host.Outcome.next (if s.synced then s.rasterLine else s.lockStep) = _
  rw [if_pos hsynced, State.rasterLine]
  rcases hmode with h | h <;> rw [h]

theorem drawLat_le (draw : Nat) : drawLat draw ≤ Config.dmaLatMax :=
  Nat.lt_succ_iff.1 (Nat.mod_lt _ (Nat.succ_pos _))

/-- Settles O47: the transfer by `State.vgaTransfer_of_armed`, the position by `State.VgaInv.nextLine_toNat`, the rest
field by field. -/
theorem vgaLineIsOnePhysicalLine : Obligations.VgaLineIsOnePhysicalLine := by
  unfold Obligations.VgaLineIsOnePhysicalLine
  intro s hmode hsynced hinv last wrap
  have hwrap : s.nextLine.toNat = s.tim.vtotal ↔ wrap := hinv.nextLine_eq_vtotal_iff
  have hsub := hinv.sub_succ
  have hline := hinv.nextLine_toNat
  have hdma := s.vgaLine_dma
  refine ⟨s.vgaLine, exec_evLt_of_vga hmode hsynced, fun harmed => ?armed, fun harmed => ?idle, ?vsync, ?vlevel,
    fun hlast => ?last, fun hlast => ?repeats, fun hw => ?wraps, fun hw => ?stays, ?frame⟩
  case armed =>
    obtain ⟨htransfer, hgpio, hdraws⟩ := State.vgaTransfer_of_armed harmed
    rw [htransfer] at hdma
    rw [s.vgaLine_gpio, s.vgaLine_draws, s.vgaLine_fault, hdma, hgpio, hdraws, harmed, Bool.true_and]
    exact ⟨rfl, rfl, rfl, rfl, rfl, rfl, drawLat_le _, rfl, rfl, rfl, rfl, rfl, fetchUnits_length ..,
      fun k hk => fetchUnits_getElem? _ _ _ hk, rfl, rfl⟩
  case idle =>
    rw [State.vgaTransfer_of_not_armed harmed] at hdma
    rw [s.vgaLine_gpio, s.vgaLine_draws, s.vgaLine_fault, hdma, harmed, State.vgaTransfer_of_not_armed harmed]
    exact ⟨rfl, rfl, rfl, rfl⟩
  case vsync => rw [s.vgaLine_vsync, Bool.and_eq_true, decide_eq_true_eq, decide_eq_true_eq]
  case vlevel => rw [s.vgaLine_gpio]
  case last =>
    have hend : (s.sub + 1).toNat = s.tim.yscale := hsub.trans hlast
    refine ⟨by rw [s.vgaLine_sub, if_pos hend],
      by rw [hinv.vgaLine_ldpend, decide_eq_false (not_not.2 hlast)]; rfl, fun hw => ?_⟩
    rw [s.vgaLine_line, if_neg (mt hwrap.1 hw), hline, if_pos hlast]
  case repeats =>
    have hmore : ¬(s.sub + 1).toNat = s.tim.yscale := fun h => hlast (hsub.symm.trans h)
    have hw : ¬s.nextLine.toNat = s.tim.vtotal := fun h => hlast (hwrap.1 h).1
    refine ⟨by rw [s.vgaLine_sub, if_neg hmore, hsub], ?_, by rw [hinv.vgaLine_ldpend, decide_eq_true hlast]; rfl⟩
    rw [s.vgaLine_line, if_neg hw, State.nextLine, if_neg hmore]
  case wraps =>
    have hend := hwrap.2 hw
    rw [s.vgaLine_line, s.vgaLine_armed, s.vgaLine_frame, hdma, if_pos hend, if_pos hend, if_pos hend,
      decide_eq_true hend]
    exact ⟨rfl, rfl, rfl, rfl⟩
  case stays =>
    have hmore := mt hwrap.1 hw
    have hsrc : s.vgaTransfer.dma.src = s.dma.src := by
      cases harmed : s.armed with
      | true => rw [(State.vgaTransfer_of_armed harmed).1]
      | false => rw [State.vgaTransfer_of_not_armed harmed]
    rw [s.vgaLine_line, s.vgaLine_armed, s.vgaLine_frame, hdma, if_neg hmore, if_neg hmore, if_neg hmore,
      decide_eq_false hmore, Bool.false_or]
    exact ⟨hsrc, rfl, rfl⟩
  case frame =>
    have hdma' : s.vgaLine.dma = { s.dma with
        src := s.vgaLine.dma.src, len := s.vgaLine.dma.len, busy := s.vgaLine.dma.busy, done := s.vgaLine.dma.done
        flight := s.vgaLine.dma.flight } := by
      rw [hdma]
      cases harmed : s.armed with
      | true => rw [(State.vgaTransfer_of_armed harmed).1]
      | false => rw [State.vgaTransfer_of_not_armed harmed]
    have hgpio : s.vgaLine.gpio = { s.gpio with data := s.vgaLine.gpio.data, vlevel := s.vgaLine.gpio.vlevel } := by
      rw [s.vgaLine_gpio]
      cases harmed : s.armed with
      | true => rw [(State.vgaTransfer_of_armed harmed).2.1]
      | false => rw [State.vgaTransfer_of_not_armed harmed]
    rw [← hdma', ← hgpio]
    exact s.vgaLine_changes

end Sys2Proof.Machine

/-! ### A VGA frame, line by line, and a line that is sent again (43_scanline_vga.md R116, R119, R120, R123, R124). -/

namespace Sys2Proof.Machine

/-- The lines and repeats of `k` and of `k + 1` at `y` repeats a line. -/
theorem div_mod_succ_of_last {k y : Nat} (h : k % y + 1 = y) : (k + 1) / y = k / y + 1 ∧ (k + 1) % y = 0 := by
  have hk := Nat.div_add_mod k y
  exact (Nat.div_mod_unique (by omega)).2 ⟨by rw [Nat.mul_succ]; omega, by omega⟩

theorem div_mod_succ_of_lt {k y : Nat} (h : k % y + 1 < y) : (k + 1) / y = k / y ∧ (k + 1) % y = k % y + 1 := by
  have hk := Nat.div_add_mod k y
  exact (Nat.div_mod_unique (by omega)).2 ⟨by omega, h⟩

/-- What keeps the mode, the timing and the height keeps a valid raster, if the position is in range. -/
theorem State.VgaInv.of_position {s t : State} (h : s.VgaInv) (hmode : t.mode = s.mode) (htim : t.tim = s.tim)
    (hheight : t.fb.height = s.fb.height) (hline : t.line.toNat < s.tim.vtotal) (hsub : t.sub.toNat < s.tim.yscale) :
    t.VgaInv := by
  obtain ⟨h1, h2, h3, h4, h5, h6, h7, -, -⟩ := h
  rw [← htim] at h1 h2 h3 h4 h5 h6 h7 hline hsub
  rw [← hmode] at h2
  rw [← hheight] at h5
  exact ⟨h1, h2, h3, h4, h5, h6, h7, hline, hsub⟩

/-- `t` is at line execution `k` of the frame that starts in `s` (R120). -/
structure State.InFrame (s t : State) (k : Nat) : Prop where
  mode : t.mode = s.mode
  tim : t.tim = s.tim
  fb : t.fb = s.fb
  synced : t.synced = s.synced
  line : t.line.toNat = k / s.tim.yscale
  sub : t.sub.toNat = k % s.tim.yscale
  frame : t.frame = s.frame
  armed : t.armed = true ↔ k / s.tim.yscale < s.fb.height

section
variable {s : State} (hinv : s.VgaInv)
include hinv

theorem State.InFrame.vgaInv {t : State} {k : Nat} (h : s.InFrame t k) (hk : k < s.tim.vtotal * s.tim.yscale) :
    t.VgaInv := by
  obtain ⟨hpos, -⟩ := hinv.doubling
  refine hinv.of_position h.mode h.tim (by rw [h.fb]) ?_ ?_
  · rw [h.line]
    exact Nat.div_lt_of_lt_mul (by rwa [Nat.mul_comm])
  · rw [h.sub]
    exact Nat.mod_lt _ hpos

/-- Line `k` of a frame is followed by line `k + 1`, by whether `k` is the last repeat of its line. -/
theorem State.InFrame.next {t : State} {k : Nat} (h : s.InFrame t k) (hk : k + 1 < s.tim.vtotal * s.tim.yscale) :
    s.InFrame t.vgaLine (k + 1) := by
  have ht := h.vgaInv hinv (by omega)
  obtain ⟨hpos, -⟩ := hinv.doubling
  have hrepeat : k % s.tim.yscale < s.tim.yscale := Nat.mod_lt _ hpos
  have hnext : (k + 1) / s.tim.yscale < s.tim.vtotal := Nat.div_lt_of_lt_mul (by rwa [Nat.mul_comm])
  have hsucc := ht.sub_succ
  have hline := ht.nextLine_toNat
  rw [h.sub, h.tim] at hline
  rw [h.sub] at hsucc
  have hposition : t.nextLine.toNat = (k + 1) / s.tim.yscale ∧ t.vgaLine.sub.toNat = (k + 1) % s.tim.yscale := by
    rw [hline, t.vgaLine_sub, hsucc, h.tim, h.line]
    by_cases hlast : k % s.tim.yscale + 1 = s.tim.yscale
    · obtain ⟨hdiv, hmod⟩ := div_mod_succ_of_last hlast
      rw [if_pos hlast, if_pos hlast, hdiv, hmod]
      exact ⟨rfl, rfl⟩
    · obtain ⟨hdiv, hmod⟩ := div_mod_succ_of_lt (by omega : k % s.tim.yscale + 1 < s.tim.yscale)
      rw [if_neg hlast, if_neg hlast, hdiv, hmod]
      exact ⟨rfl, hsucc⟩
  obtain ⟨hnextLine, hsub⟩ := hposition
  have hstay : ¬t.nextLine.toNat = t.tim.vtotal := by rw [hnextLine, h.tim]; omega
  have hstep : (k + 1) / s.tim.yscale = k / s.tim.yscale ∨ (k + 1) / s.tim.yscale = k / s.tim.yscale + 1 := by
    rw [← hnextLine, hline, h.line]
    split
    · exact .inr rfl
    · exact .inl rfl
  exact
    { mode := (State.vgaLine_mode t).trans h.mode
      tim := (State.vgaLine_tim t).trans h.tim
      fb := (State.vgaLine_fb t).trans h.fb
      synced := (State.vgaLine_synced t).trans h.synced
      line := by rw [t.vgaLine_line, if_neg hstay, hnextLine]
      sub := hsub
      frame := by rw [t.vgaLine_frame, if_neg hstay, h.frame]
      armed := by
        rw [t.vgaLine_armed, decide_eq_false hstay, Bool.false_or, Bool.and_eq_true, h.armed, decide_eq_true_eq,
          hnextLine, h.fb]
        omega }

/-- The last line execution of a frame wraps to the start of the next one. -/
theorem State.InFrame.wraps {t : State} {k : Nat} (h : s.InFrame t k) (hk : k + 1 = s.tim.vtotal * s.tim.yscale) :
    t.nextLine.toNat = t.tim.vtotal ∧ (t.sub + 1).toNat = t.tim.yscale := by
  have ht := h.vgaInv hinv (by omega)
  obtain ⟨hpos, -⟩ := hinv.doubling
  have hrepeat : k % s.tim.yscale < s.tim.yscale := Nat.mod_lt _ hpos
  have hlast : k % s.tim.yscale + 1 = s.tim.yscale := by
    by_contra hmore
    obtain ⟨-, hmod⟩ := div_mod_succ_of_lt (by omega : k % s.tim.yscale + 1 < s.tim.yscale)
    rw [hk, Nat.mul_mod_left] at hmod
    omega
  obtain ⟨hdiv, -⟩ := div_mod_succ_of_last hlast
  rw [hk, Nat.mul_div_cancel _ hpos] at hdiv
  rw [ht.nextLine_eq_vtotal_iff, ht.sub_succ, h.sub, h.line, h.tim]
  exact ⟨⟨hlast, hdiv.symm⟩, hlast⟩

end

/-- Settles O48: `InFrame` along the lines of the frame by induction, and the wrap of its last line. -/
theorem frameIsVtotalTimesYscaleLines : Obligations.FrameIsVtotalTimesYscaleLines := by
  unfold Obligations.FrameIsVtotalTimesYscaleLines
  intro s hmode hsynced hinv hheight hline hsub harmed
  have hin (k : Nat) (hk : k < s.tim.vtotal * s.tim.yscale) : s.InFrame (State.vgaLine^[k] s) k := by
    induction k with
    | zero =>
      refine ⟨rfl, rfl, rfl, rfl, ?_, ?_, rfl, ?_⟩
      · rw [Nat.zero_div]
        exact congrArg BitVec.toNat hline
      · rw [Nat.zero_mod]
        exact congrArg BitVec.toNat hsub
      · rw [Nat.zero_div]
        exact ⟨fun _ => hheight, fun _ => harmed⟩
    | succ k ih =>
      rw [Function.iterate_succ_apply']
      exact (ih (by omega)).next hinv hk
  refine ⟨fun k hk => ?line, ?wrap⟩
  case line =>
    have h := hin k hk
    refine ⟨h.line, h.sub, h.frame, h.armed, ?_⟩
    rw [Function.iterate_succ_apply']
    exact exec_evLt_of_vga (by rwa [h.mode]) (h.synced.trans hsynced)
  case wrap =>
    obtain ⟨hpos, -⟩ := hinv.doubling
    have hlines : 0 < s.tim.vtotal := Nat.zero_lt_of_lt hinv.line
    obtain ⟨k, hk⟩ := Nat.exists_eq_add_of_le' (Nat.mul_pos hlines hpos)
    have h := hin k (by omega)
    obtain ⟨hnext, hlast⟩ := h.wraps hinv hk.symm
    rw [hk, Function.iterate_succ_apply']
    intro u
    refine ⟨?_, ?_, ?_, ?_, ?_⟩
    · rw [State.vgaLine_line, if_pos hnext]
    · rw [State.vgaLine_sub, if_pos hlast]
    · rw [State.vgaLine_armed, decide_eq_true hnext, Bool.true_or]
    · rw [State.vgaLine_frame, if_pos hnext, h.frame]
    · rw [State.vgaLine_dma, if_pos hnext, h.fb]

theorem State.rewind_ldpend (s : State) : s.rewind.ldpend = false := by
  cases h : s.ldpend with
  | true => rw [State.rewind_of_ldpend h]
  | false => rw [State.rewind_of_not_ldpend h, h]

/-- The source after the rewind: one line back if a line double was pending (R124). -/
theorem State.rewind_src (s : State) :
    s.rewind.dma.src = if s.ldpend then s.dma.src - BitVec.ofNat 32 s.fb.xfer else s.dma.src := by
  cases h : s.ldpend with
  | true => rw [State.rewind_of_ldpend h]; rfl
  | false => rw [State.rewind_of_not_ldpend h]; rfl

/-- Settles O49: the completion moves the source on by the line just sent, and the rewind takes it back exactly if a
line double is pending, which it is but at the last repeat. -/
theorem lineDoublingResendsTheLine : Obligations.LineDoublingResendsTheLine := by
  unfold Obligations.LineDoublingResendsTheLine
  intro s hmode hsynced hinv harmed hidle
  obtain ⟨htransfer, -, -⟩ := State.vgaTransfer_of_armed harmed
  have hdma := s.vgaLine_dma
  rw [htransfer] at hdma
  have hfault : s.vgaLine.dmaComplete.rewind.fault = s.fault := by
    rw [State.rewind_fault, State.dmaComplete_fault, s.vgaLine_fault, hidle]
    simp [State.dmaComplete]
  have hsrc : s.vgaLine.dmaComplete.rewind.dma.src = if s.vgaLine.ldpend then s.vgaLine.dma.src
      else s.vgaLine.dma.src + BitVec.ofNat 32 s.fb.xfer := by
    rw [State.rewind_src, State.dmaComplete_ldpend, State.dmaComplete_fb, s.vgaLine_fb, State.dmaComplete, hdma]
    split
    · exact BitVec.add_sub_cancel _ _
    · rfl
  have hstays (hwrap : ¬s.nextLine.toNat = s.tim.vtotal) :
      s.vgaLine.dma.src = s.dma.src ∧ s.vgaLine.line = s.nextLine := by
    rw [hdma, s.vgaLine_line, if_neg hwrap, if_neg hwrap]
    exact ⟨rfl, rfl⟩
  have hdouble := hinv.vgaLine_ldpend
  rw [harmed, Bool.and_true] at hdouble
  have hchannel : s.vgaLine.dmaComplete.rewind.dma.busy = false ∧ s.vgaLine.dmaComplete.rewind.dma.done = true := by
    rw [State.rewind_dma]
    exact ⟨rfl, rfl⟩
  have hline : s.vgaLine.dmaComplete.rewind.line = s.vgaLine.line :=
    (State.rewind_line _).trans (State.dmaComplete_line _)
  have hldpend := s.vgaLine.dmaComplete.rewind_ldpend
  refine ⟨s.vgaLine, _, exec_evLt_of_vga hmode hsynced, exec_evHc _, ?_⟩
  generalize s.vgaLine.dmaComplete.rewind = r at *
  refine ⟨hfault, hchannel.1, hchannel.2, hldpend, rfl, fun hmore => ?again, fun hlast hstay => ?moved⟩
  case again =>
    have hnot : s.sub.toNat + 1 ≠ s.tim.yscale := hmore.ne
    obtain ⟨hkept, hnext⟩ := hstays fun h => hnot (hinv.nextLine_eq_vtotal_iff.1 h).1
    refine ⟨hsrc.trans ?_, hline.trans (hnext.trans ?_)⟩
    · rw [hdouble, decide_eq_true hnot, if_pos rfl, hkept]
    · exact if_neg fun h => hnot (hinv.sub_succ.symm.trans h)
  case moved =>
    obtain ⟨hkept, hnext⟩ := hstays fun h => hstay (hinv.nextLine_eq_vtotal_iff.1 h).2
    refine ⟨hsrc.trans ?_, ?_⟩
    · rw [hdouble, decide_eq_false (not_not.2 hlast), if_neg nofun, hkept]
    · change r.line.toNat = _
      rw [hline, hnext, hinv.nextLine_toNat, if_pos hlast]

end Sys2Proof.Machine

/-! ### The chroma phase and the row walk (44_composite.md R139, R142, R144, R146). -/

namespace Sys2Proof.Machine

/-- After `k` lines the phase has moved on by `k` offsets, modulo the cycle (R142). -/
theorem nextPhase_iterate (p : CompositeParams) {phase : Nat} (h : phase < p.cycle) (k : Nat) :
    (nextPhase p)^[k] phase = (phase + k * p.poff) % p.cycle := by
  induction k with
  | zero => simp [Nat.mod_eq_of_lt h]
  | succ k ih => rw [Function.iterate_succ_apply', ih, nextPhase, Nat.mod_add_mod, Nat.succ_mul, Nat.add_assoc]

theorem dvd_mul_iff_div_gcd_dvd {c : Nat} (hc : 0 < c) (k o : Nat) : c ∣ k * o ↔ c / Nat.gcd c o ∣ k := by
  have hg : 0 < Nat.gcd c o := Nat.gcd_pos_of_pos_left o hc
  have hcoprime : Nat.Coprime (c / Nat.gcd c o) (o / Nat.gcd c o) := Nat.coprime_div_gcd_div_gcd hg
  calc c ∣ k * o ↔ Nat.gcd c o * (c / Nat.gcd c o) ∣ Nat.gcd c o * (k * (o / Nat.gcd c o)) := by
        rw [Nat.mul_div_cancel' (Nat.gcd_dvd_left c o), Nat.mul_left_comm, Nat.mul_div_cancel' (Nat.gcd_dvd_right c o)]
    _ ↔ c / Nat.gcd c o ∣ k * (o / Nat.gcd c o) := Nat.mul_dvd_mul_iff_left hg
    _ ↔ c / Nat.gcd c o ∣ k := hcoprime.dvd_mul_right

/-- Settles O55: the phase is back exactly if the cycle divides the sum of the offsets. -/
theorem chromaPhaseIsPeriodic : Obligations.ChromaPhaseIsPeriodic := by
  unfold Obligations.ChromaPhaseIsPeriodic
  intro p phase hcycle hphase k
  rw [nextPhase_iterate p hphase, ← dvd_mul_iff_div_gcd_dvd hcycle]
  calc (phase + k * p.poff) % p.cycle = phase ↔ phase + k * p.poff ≡ phase [MOD p.cycle] := by
        rw [Nat.ModEq, Nat.mod_eq_of_lt hphase]
    _ ↔ p.cycle ∣ k * p.poff := Nat.add_modEq_left_iff

/-- After `x` pixels the row has moved on by `x` strides, modulo the cycle (R139). -/
theorem nextRow_iterate (p : CompositeParams) (h : p.pstride ≤ p.cycle) {row : Nat} (hr : row < p.cycle) (x : Nat) :
    (nextRow p)^[x] row = (row + x * p.pstride) % p.cycle := by
  induction x with
  | zero => simp [Nat.mod_eq_of_lt hr]
  | succ x ih =>
    have hlt : (nextRow p)^[x] row < p.cycle := by
      rw [ih]
      exact Nat.mod_lt _ (by omega)
    obtain ⟨-, hnext⟩ := nextRow_eq p h hlt
    rw [Function.iterate_succ_apply', hnext, ih, Nat.mod_add_mod, Nat.succ_mul, Nat.add_assoc]

theorem rowWalk_getElem? (p : CompositeParams) (row : Nat) {n x : Nat} (hx : x < n) :
    (rowWalk p row n)[x]? = some ((nextRow p)^[x] row) := by
  induction n generalizing row x with
  | zero => omega
  | succ n ih =>
    cases x with
    | zero => rfl
    | succ x => exact ih _ (by omega)

/-- The row of pixel `x` of a line, from the line's first row (R139). -/
theorem firstRow_iterate (p : CompositeParams) (phase x : Nat) (hpos : 1 ≤ p.pstride) (h : p.pstride ≤ p.cycle) :
    (nextRow p)^[x] (firstRow p phase) = (phase + p.pfixoff + x * p.pstride) % p.cycle := by
  have hlt : firstRow p phase < p.cycle := Nat.mod_lt _ (by omega)
  rw [nextRow_iterate p h hlt, firstRow, Nat.mod_add_mod]

/-- Settles O56: entry `x` of the walk is the row after `x` steps. -/
theorem rowWalkIsModular : Obligations.RowWalkIsModular := by
  unfold Obligations.RowWalkIsModular
  intro p phase n x hpos hstride hx
  rw [rowWalk_getElem? p _ hx, firstRow_iterate p phase x hpos hstride]

/-! The constraints of the parameters (44_composite.md R147; log 10). -/

theorem cCycle_bounds (std : Standard) : 0 < Config.cCycle std ∧ Config.cCycle std < 2 ^ 8 := by
  cases std <;> decide

theorem cTotal_bounds (std : Standard) : 0 < Config.cTotal std ∧ Config.cTotal std < 2 ^ 16 := by
  cases std <;> decide

theorem cPstride_bounds (std : Standard) : 1 ≤ Config.cPstride std ∧ Config.cPstride std ≤ Config.cCycle std := by
  obtain ⟨hpos, -⟩ := cCycle_bounds std
  have hlt := Nat.mod_lt (Config.cPstrideOpen std) hpos
  unfold Config.cPstride
  omega

theorem cPreLen_add_le (std : Standard) : Config.cPreLen std + 320 ≤ Config.cSlotLen std :=
  Nat.le_add_right _ _

/-- The capacity of the allocator does not exceed SRAM (R8). -/
theorem fbCapacityBytes_le : Config.fbCapacityBytes ≤ 98304 := by
  have := Nat.mod_lt Config.fbCapacityOpen (by decide : 0 < 21505)
  unfold Config.fbCapacityBytes
  omega

/-- Settles O58: each parameter is brought into its range by its definition. -/
theorem parametersMeetTheirConstraints : Obligations.ParametersMeetTheirConstraints := by
  unfold Obligations.ParametersMeetTheirConstraints
  refine ⟨Nat.le_add_right _ _, fbCapacityBytes_le, ?base, fun std => ⟨cPreLen_add_le std, ?lock, ?variants,
    Nat.mod_lt _ (cCycle_bounds std).1, (cPstride_bounds std).1, (cPstride_bounds std).2,
    Nat.mod_lt _ (cCycle_bounds std).1, ?picture, ?even, ?time⟩⟩
  case base =>
    rw [Config.blockBase, toNat_append_eq, BitVec.toNat_zero]
    omega
  case lock =>
    have hpos : 0 < Config.cHtotalClk std - 1 := by cases std <;> decide
    have := Nat.mod_lt (Config.cLockOffOpen std) hpos
    unfold Config.cLockOffClk
    omega
  case variants =>
    unfold Config.cNvar
    omega
  case picture =>
    have hle : Config.cHeight std ≤ Config.cTotal std := by cases std <;> decide
    have := Nat.mod_lt (Config.cActStartOpen std) (Nat.add_one_pos (Config.cTotal std - Config.cHeight std))
    unfold Config.cActStart
    omega
  case even => cases std <;> rfl
  case time =>
    have hlat : Config.dmaLatMax ≤ Config.cHtotalClk std := by
      have := Nat.mod_lt Config.dmaLatMaxOpen (by decide : 0 < 5325)
      have : 5324 ≤ Config.cHtotalClk std := by cases std <;> decide
      unfold Config.dmaLatMax
      omega
    have hsample : Config.cSlotLen std * Config.cSampleClk std ≤ Config.cHtotalClk std - Config.dmaLatMax :=
      (Nat.mul_le_mul_left _ (Nat.min_le_right _ _)).trans (Nat.mul_div_le _ _)
    omega

end Sys2Proof.Machine

/-! ### One composite line (44_composite.md R135 to R143). -/

namespace Sys2Proof.Machine

/-! The body of a line, pixel by pixel. -/

section
variable (p : CompositeParams) (m : Memory) (base : Addr) (phase n : Nat) {x : Nat} (hx : x < 320)
include hx

/-- An active line: the sample of pixel `x` at its row (R139). -/
theorem lineBody_of_active (hactive : p.actStart ≤ n ∧ n < p.actStart + p.height) (hpos : 1 ≤ p.pstride)
    (hstride : p.pstride ≤ p.cycle) :
    (lineBody p m base phase n).length = 320 ∧ (lineBody p m base phase n)[x]? =
      some (p.pt (m.read (base + BitVec.ofNat 32 ((n - p.actStart) * 320 + x)).toNat)
        ((phase + p.pfixoff + x * p.pstride) % p.cycle)) := by
  have hbody : lineBody p m base phase n = encodeActive p m base phase (n - p.actStart) :=
    if_pos (by simpa [activeLine] using hactive)
  rw [hbody, encodeActive, encodePixels_getElem? _ _ _ _ _ _ hx, firstRow_iterate p phase x hpos hstride,
    BitVec.add_assoc, ← BitVec.ofNat_add]
  exact ⟨encodePixels_length .., rfl⟩

/-- A line of the band: the pattern of its class (R140). -/
theorem bandBody_of_class (n : Nat) :
    (p.lineClass n = .blank → (bandBody p n).length = 320 ∧ (bandBody p n)[x]? = some (p.blankpat x)) ∧
    (p.lineClass n = .white → (bandBody p n).length = 320 ∧ (bandBody p n)[x]? = some (p.whitepat x)) := by
  constructor
  all_goals
    intro h
    simp [bandBody, h, hx]

end

theorem lineBody_of_not_active (p : CompositeParams) (m : Memory) (base : Addr) (phase n : Nat)
    (hactive : ¬(p.actStart ≤ n ∧ n < p.actStart + p.height)) : lineBody p m base phase n = bandBody p n :=
  if_neg (by simpa [activeLine] using hactive)

theorem bandBody_of_outside {p : CompositeParams} {n : Nat} (h : p.lineClass n = .outside) : bandBody p n = [] := by
  rw [bandBody, h]

/-! The parts of the line body. -/

section
variable (s : State) (p : CompositeParams) (n len : Nat)

theorem State.fillLine_lengths : (s.fillLine p n).cslot0.length = s.cslot0.length ∧
    (s.fillLine p n).cslot1.length = s.cslot1.length := by
  unfold State.fillLine
  split <;> simp

theorem State.compositeAdvance_slot (j : Nat) : (s.compositeAdvance p n).slot j = s.slot j := by
  simp [State.slot]

theorem State.compositeAdvance_phase :
    (s.compositeAdvance p n).phase = BitVec.ofNat 8 (nextPhase p s.phase.toNat) := by
  unfold State.compositeAdvance
  dsimp only
  split <;> rfl

theorem State.compositeAdvance_line :
    (s.compositeAdvance p n).line = if n + 1 = p.total then 0 else BitVec.ofNat 16 (n + 1) := by
  unfold State.compositeAdvance
  dsimp only
  split <;> rfl

theorem State.compositeAdvance_frame :
    (s.compositeAdvance p n).frame = if n + 1 = p.total then s.frame + 1 else s.frame := by
  unfold State.compositeAdvance
  dsimp only
  split <;> rfl

/-- The transfer of slot `j` starts with the samples the slot holds now (R138). -/
theorem State.startSlotTransfer_dma (j : Nat) : (s.startSlotTransfer j len).dma = { s.dma with
    src := BitVec.ofNat 32 j, len := len, busy := true, done := false, flight := s.slotFlight j len } := by
  simp [State.startSlotTransfer, State.slotFlight, State.slot]

/-! The whole line. -/

theorem State.compositeLine_dma : (s.compositeLine p len).dma = { s.dma with
    src := BitVec.ofNat 32 ((s.line.toNat + 1) % 2), len := len, busy := true, done := false
    flight := s.slotFlight ((s.line.toNat + 1) % 2) len } := by
  rw [State.compositeLine, State.compositeAdvance_dma, State.fillLine_dma, s.startSlotTransfer_dma]

theorem State.compositeLine_draws : (s.compositeLine p len).draws = s.draws + 1 := by
  simp [State.compositeLine, State.startSlotTransfer]

theorem State.compositeLine_phase :
    (s.compositeLine p len).phase = BitVec.ofNat 8 (nextPhase p s.phase.toNat) := by
  simp [State.compositeLine, State.compositeAdvance_phase]

theorem State.compositeLine_line : (s.compositeLine p len).line =
    if s.line.toNat + 1 = p.total then 0 else BitVec.ofNat 16 (s.line.toNat + 1) := by
  rw [State.compositeLine, State.compositeAdvance_line]

theorem State.compositeLine_frame : (s.compositeLine p len).frame =
    if s.line.toNat + 1 = p.total then s.frame + 1 else s.frame := by
  simp [State.compositeLine, State.compositeAdvance_frame]

/-- A line fills the slot of its parity and leaves the other one (R135). -/
theorem State.compositeLine_slot : (s.compositeLine p len).slot (s.line.toNat % 2) =
      fillSlot p s.mem s.fb.base s.phase.toNat s.line.toNat (s.slot (s.line.toNat % 2)) ∧
    (s.compositeLine p len).slot ((s.line.toNat + 1) % 2) = s.slot ((s.line.toNat + 1) % 2) := by
  have hstart (j : Nat) : (s.startSlotTransfer ((s.line.toNat + 1) % 2) len).slot j = s.slot j := by
    simp [State.slot]
  obtain ⟨hfilled, hother⟩ :=
    (s.startSlotTransfer ((s.line.toNat + 1) % 2) len).fillLine_slot p s.line.toNat
  simp only [State.compositeLine, State.compositeAdvance_slot, hfilled, hother, hstart,
    State.startSlotTransfer_mem, State.startSlotTransfer_fb, State.startSlotTransfer_phase, and_self]

theorem State.compositeLine_lengths : (s.compositeLine p len).cslot0.length = s.cslot0.length ∧
    (s.compositeLine p len).cslot1.length = s.cslot1.length := by
  obtain ⟨h0, h1⟩ := (s.startSlotTransfer ((s.line.toNat + 1) % 2) len).fillLine_lengths p s.line.toNat
  simp only [State.compositeLine, State.compositeAdvance_cslot0, State.compositeAdvance_cslot1, h0, h1,
    State.startSlotTransfer_cslot0, State.startSlotTransfer_cslot1, and_self]

/-- The frame of a composite line: memory and every register but those named stay (R136). -/
theorem State.compositeLine_changes : s.compositeLine p len = { s with
    cslot0 := (s.compositeLine p len).cslot0, cslot1 := (s.compositeLine p len).cslot1
    fault := (s.compositeLine p len).fault, draws := (s.compositeLine p len).draws
    phase := (s.compositeLine p len).phase, line := (s.compositeLine p len).line
    frame := (s.compositeLine p len).frame, dma := (s.compositeLine p len).dma } :=
  (s.compositeLine p len).eq_fields.trans (by simp)

end

/-- The phase after a line fits its register: it is below the cycle (R142). -/
theorem nextPhase_toNat (std : Standard) (phase : Nat) :
    (BitVec.ofNat 8 (nextPhase (Config.composite std) phase)).toNat =
      (phase + Config.cPoff std) % Config.cCycle std := by
  obtain ⟨hpos, hmax⟩ := cCycle_bounds std
  exact (BitVec.toNat_ofNat ..).trans (Nat.mod_eq_of_lt ((Nat.mod_lt _ hpos).trans hmax))

/-! In a valid raster of a standard. -/

section
variable {s : State} {std : Standard} (hinv : s.CompositeInv std)
include hinv

theorem State.CompositeInv.slot_length (j : Nat) : (s.slot j).length = Config.cSlotLen std := by
  unfold State.slot
  split
  · exact hinv.slot0
  · exact hinv.slot1

theorem State.CompositeInv.line_succ_toNat : (BitVec.ofNat 16 (s.line.toNat + 1)).toNat = s.line.toNat + 1 := by
  have hline := hinv.line
  obtain ⟨-, hmax⟩ := cTotal_bounds std
  exact (BitVec.toNat_ofNat ..).trans (Nat.mod_eq_of_lt (by omega))

end

theorem exec_evLt_of_standard {s : State} {std : Standard} (hmode : s.mode = modeOfStandard std)
    (hsynced : s.synced = true) :
    exec .evLt s = .next (s.compositeLine (Config.composite std) (Config.cSlotLen std)) := by
  change Host.Outcome.next (if s.synced then s.rasterLine else s.lockStep) = _
  rw [if_pos hsynced, State.rasterLine, hmode]
  cases std <;> rfl

/-- DMA_SRC of a composite mode is the tag of the slot last sent (R138; log 14). -/
theorem State.register_dmaSrc_of_standard {s : State} {std : Standard} (hmode : s.mode = modeOfStandard std) :
    s.register 0x44 = s.dma.flight.origin := by
  change s.dmaSrcRegister = _
  rw [State.dmaSrcRegister, hmode]
  cases std <;> rfl

/-- Settles O57: the slot filled is `fillSlot` read sample by sample, with the body by the class of the line; the rest
field by field. -/
theorem compositeLineFillsItsSlot : Obligations.CompositeLineFillsItsSlot := by
  unfold Obligations.CompositeLineFillsItsSlot
  intro s std hmode hsynced hinv n k pre phase active
  have hpre : pre + 320 ≤ Config.cSlotLen std := cPreLen_add_le std
  have hlen := hinv.slot_length
  obtain ⟨hpos, hstride⟩ := cPstride_bounds std
  obtain ⟨hfilled, hother⟩ := s.compositeLine_slot (Config.composite std) (Config.cSlotLen std)
  have hdma := s.compositeLine_dma (Config.composite std) (Config.cSlotLen std)
  have hline := s.compositeLine_line (Config.composite std) (Config.cSlotLen std)
  have hframe := s.compositeLine_frame (Config.composite std) (Config.cSlotLen std)
  have hphase := s.compositeLine_phase (Config.composite std) (Config.cSlotLen std)
  have hfault := s.compositeLine_fault (Config.composite std) (Config.cSlotLen std)
  have hdraws := s.compositeLine_draws (Config.composite std) (Config.cSlotLen std)
  have hchanges := s.compositeLine_changes (Config.composite std) (Config.cSlotLen std)
  have htmode := s.compositeLine_mode (Config.composite std) (Config.cSlotLen std)
  have hexec := exec_evLt_of_standard hmode hsynced
  generalize s.compositeLine (Config.composite std) (Config.cSlotLen std) = t at *
  let body := lineBody (Config.composite std) s.mem s.fb.base phase n
  have hsample (i : Nat) (hi : i < Config.cSlotLen std) : (t.slot k)[i]? =
      if pre ≤ i ∧ i < pre + body.length then body[i - pre]?
      else if i < pre then some (Config.cTemplate std (if Config.cNvar std = 2 then n % 2 else 0) (phase + i))
      else (s.slot k)[i]? := by
    rw [hfilled]
    exact fillSlot_getElem? _ _ _ _ _ _ _ (by rwa [hlen])
  have hbody {x : Nat} (hx : x < 320) (hfull : body.length = 320) : (t.slot k)[pre + x]? = body[x]? := by
    rw [hsample _ (by omega), hfull, if_pos (by omega), Nat.add_sub_cancel_left]
  have hkept (i : Nat) (hi : i < Config.cSlotLen std) (hend : pre + body.length ≤ i) :
      (t.slot k)[i]? = (s.slot k)[i]? := by
    rw [hsample i hi, if_neg (by omega), if_neg (by omega)]
  have hband (hout : ¬active) : body = bandBody (Config.composite std) n := lineBody_of_not_active _ _ _ _ _ hout
  refine ⟨t, hexec, ?length, hother, fun i hi => ?preamble, fun x hx => ⟨fun hin => ?picture, fun hout hclass => ?blank,
    fun hout hclass => ?white, fun hout hclass => ?outside⟩, fun i hi => ?tail, ?transfer⟩
  case length =>
    rw [hfilled, fillSlot_length]
    exact hlen _
  case preamble => rw [hsample i (by omega), if_neg (by omega), if_pos hi]
  case picture =>
    obtain ⟨hfull, hpixel⟩ := lineBody_of_active (Config.composite std) s.mem s.fb.base phase n hx hin hpos hstride
    exact (hbody hx hfull).trans hpixel
  case blank =>
    obtain ⟨hfull, hpattern⟩ := (bandBody_of_class (Config.composite std) hx n).1 hclass
    exact (hbody hx (by rw [hband hout]; exact hfull)).trans (by rw [hband hout]; exact hpattern)
  case white =>
    obtain ⟨hfull, hpattern⟩ := (bandBody_of_class (Config.composite std) hx n).2 hclass
    exact (hbody hx (by rw [hband hout]; exact hfull)).trans (by rw [hband hout]; exact hpattern)
  case outside =>
    have hempty : body = [] := (hband hout).trans (bandBody_of_outside hclass)
    exact hkept _ (by omega) (by rw [hempty]; exact Nat.le_add_right _ _)
  case tail =>
    have hmax : body.length ≤ 320 := lineBody_length_le ..
    by_cases hin : i < Config.cSlotLen std
    · exact hkept i hin (by omega)
    · rw [List.getElem?_eq_none (by rw [hfilled, fillSlot_length, hlen]; omega),
        List.getElem?_eq_none (by rw [hlen]; omega)]
  case transfer =>
    have hregister := State.register_dmaSrc_of_standard (htmode.trans hmode)
    rw [hregister, hdma, hphase, hline, hframe]
    refine ⟨rfl, rfl, rfl, rfl, ?units, rfl, rfl, drawLat_le _, hdraws, rfl, rfl, rfl, rfl, rfl, rfl, hfault,
      nextPhase_toNat std phase, fun hwrap => ⟨if_pos hwrap, if_pos hwrap⟩, fun hmore => ⟨?_, if_neg hmore⟩, ?_⟩
    case units =>
      change ((s.slot _).take _).map _ = _
      rw [List.take_of_length_le (hlen _).le]
    · exact (congrArg BitVec.toNat (if_neg hmore)).trans hinv.line_succ_toNat
    · rw [hchanges]
      rw [hdma, hphase, hline, hframe]

end Sys2Proof.Machine

/-! ### The raster invariant (10_state.md R22, R24, R25; 44_composite.md R133, R138). -/

namespace Sys2Proof.Machine

theorem isVga_iff (mode : Mode) : mode.isVga = true ↔ mode = .mono ∨ mode = .color := by
  cases mode <;> decide

theorem standard_eq_some_iff {mode : Mode} {std : Standard} : mode.standard = some std ↔ mode = modeOfStandard std := by
  cases mode <;> cases std <;> decide

/-- The raster invariant by the mode: nothing while Off, `VgaInv` in a VGA mode, `CompositeInv` in a standard's. -/
theorem State.rasterInv_of_off {s : State} (h : s.mode = .off) : s.RasterInv := by
  refine ⟨fun hvga => ?_, fun std hstd => ?_⟩
  · rw [h] at hvga
    cases hvga
  · rw [h] at hstd
    cases hstd

theorem State.rasterInv_of_vga {s : State} (h : s.mode.isVga = true) (hs : s.VgaInv) : s.RasterInv := by
  refine ⟨fun _ => hs, fun std hstd => ?_⟩
  rw [standard_eq_some_iff.1 hstd, isVga_modeOfStandard] at h
  cases h

theorem modeOfStandard_injective : Function.Injective modeOfStandard := by
  intro std std' h
  cases std <;> cases std'
  case ntsc.pal | pal.ntsc => cases h
  all_goals rfl

theorem State.rasterInv_of_standard {s : State} {std : Standard} (h : s.mode = modeOfStandard std)
    (hs : s.CompositeInv std) : s.RasterInv := by
  refine ⟨fun hvga => ?_, fun std' hstd => ?_⟩
  · rw [h, isVga_modeOfStandard] at hvga
    cases hvga
  · have hsame : modeOfStandard std = modeOfStandard std' := h.symm.trans (standard_eq_some_iff.1 hstd)
    exact modeOfStandard_injective hsame ▸ hs

/-- What keeps the mode, the timing, the picture's height and the position, and in a composite mode the slots, the flags
and the kind of transfer in flight, keeps the raster invariant. -/
theorem State.RasterInv.of_same {s t : State} (h : s.RasterInv) (hmode : t.mode = s.mode) (htim : t.tim = s.tim)
    (hfb : t.fb = s.fb) (hline : t.line = s.line) (hsub : t.sub = s.sub) (hphase : t.phase = s.phase)
    (h0 : t.cslot0 = s.cslot0) (h1 : t.cslot1 = s.cslot1) (hvsync : t.vsync = s.vsync) (harmed : t.armed = s.armed)
    (hldpend : t.ldpend = s.ldpend ∨ t.ldpend = false) (htag : t.dma.flight.origin = s.dma.flight.origin)
    (hsource : t.dma.busy = true → s.dma.busy = true ∧ t.dma.flight.fromSlot = s.dma.flight.fromSlot) :
    t.RasterInv := by
  obtain ⟨hvga, hcomposite⟩ := h
  refine ⟨fun hm => ?vga, fun std hm => ?composite⟩
  case vga =>
    have hs := hvga (by rwa [hmode] at hm)
    exact hs.of_position hmode htim (by rw [hfb]) (by rw [hline]; exact hs.line) (by rw [hsub]; exact hs.sub)
  case composite =>
    have hs := hcomposite std (by rwa [hmode] at hm)
    exact
      { tim := htim.trans hs.tim
        line := by rw [hline]; exact hs.line
        phase := by rw [hphase]; exact hs.phase
        slot0 := by rw [h0]; exact hs.slot0
        slot1 := by rw [h1]; exact hs.slot1
        vsync := hvsync.trans hs.vsync
        armed := harmed.trans hs.armed
        ldpend := hldpend.elim (fun h => h.trans hs.ldpend) id
        tag := by rw [htag]; exact hs.tag
        source := fun hbusy => (hsource hbusy).2.trans (hs.source (hsource hbusy).1) }

theorem State.KeepsMode.rasterInv {s t : State} (h : s.KeepsMode t) (hs : s.RasterInv) : t.RasterInv := by
  refine hs.of_same h.mode h.tim h.fb h.line h.sub h.phase h.cslot0 h.cslot1 h.vsync h.armed (.inl h.ldpend) ?_ ?_
  · rw [h.dma]
  · rw [h.dma]
    exact fun hbusy => ⟨hbusy, rfl⟩

/-- A tick ages the transfer in flight or ends it (43_scanline_vga.md R121, R123). -/
theorem State.tick_flight (s : State) : s.tick.dma.flight.origin = s.dma.flight.origin ∧
    s.tick.dma.flight.fromSlot = s.dma.flight.fromSlot := by
  rw [s.tick_dma, State.tickDma]
  split
  · exact ⟨rfl, rfl⟩
  · split <;> exact ⟨rfl, rfl⟩

theorem State.RasterInv.tick {s : State} (hs : s.RasterInv) : s.tick.RasterInv := by
  obtain ⟨htag, hslot⟩ := s.tick_flight
  refine hs.of_same ?_ ?_ ?_ ?_ ?_ ?_ ?_ ?_ ?_ ?_ (.inl ?_) htag fun hbusy => ⟨?_, hslot⟩
  case refine_12 =>
    obtain ⟨-, -, -, -, hbefore⟩ := s.tick_time hbusy
    exact hbefore
  all_goals simp

/-! The handlers. -/

/-- A VGA line keeps its raster: the line wraps at `vtotal`, the repeat at `yscale` (R116). -/
theorem State.VgaInv.vgaLine {s : State} (hs : s.VgaInv) : s.vgaLine.VgaInv := by
  have hline := hs.line
  have hsub := hs.sub
  have hnext := hs.nextLine_toNat
  have hsucc := hs.sub_succ
  refine hs.of_position s.vgaLine_mode s.vgaLine_tim (by rw [s.vgaLine_fb]) ?_ ?_
  · rw [s.vgaLine_line]
    split
    · exact Nat.zero_lt_of_lt hline
    · split at hnext <;> omega
  · rw [s.vgaLine_sub]
    split
    · exact Nat.zero_lt_of_lt hsub
    · omega

theorem State.CompositeInv.compositeLine {s : State} {std : Standard} (hs : s.CompositeInv std) :
    (s.compositeLine (Config.composite std) (Config.cSlotLen std)).CompositeInv std := by
  obtain ⟨hcycle, -⟩ := cCycle_bounds std
  obtain ⟨htotal, -⟩ := cTotal_bounds std
  have hline := hs.line
  have hdma := s.compositeLine_dma (Config.composite std) (Config.cSlotLen std)
  obtain ⟨h0, h1⟩ := s.compositeLine_lengths (Config.composite std) (Config.cSlotLen std)
  refine
    { tim := (State.compositeLine_tim ..).trans hs.tim
      line := ?line
      phase := ?phase
      slot0 := h0.trans hs.slot0
      slot1 := h1.trans hs.slot1
      vsync := (State.compositeLine_vsync ..).trans hs.vsync
      armed := (State.compositeLine_armed ..).trans hs.armed
      ldpend := (State.compositeLine_ldpend ..).trans hs.ldpend
      tag := ?tag
      source := fun _ => by rw [hdma]; rfl }
  case line =>
    rw [State.compositeLine_line]
    split
    · exact htotal
    · rename_i hmore
      have hmore' : s.line.toNat + 1 ≠ Config.cTotal std := hmore
      rw [hs.line_succ_toNat]
      omega
  case phase =>
    rw [State.compositeLine_phase, nextPhase_toNat]
    exact Nat.mod_lt _ hcycle
  case tag =>
    rw [hdma]
    change (BitVec.ofNat 32 ((s.line.toNat + 1) % 2)).toNat < 2
    rw [BitVec.toNat_ofNat]
    omega

theorem State.RasterInv.rasterLine {s : State} (hs : s.RasterInv) : s.rasterLine.RasterInv := by
  obtain ⟨hvga, hcomposite⟩ := hs
  have hmode := s.rasterLine_mode
  unfold State.rasterLine at hmode ⊢
  cases h : s.mode with
  | off => exact State.rasterInv_of_off h
  | mono | color =>
    simp only [h] at hmode ⊢
    exact State.rasterInv_of_vga (by rw [hmode]; rfl) (hvga (by rw [h]; rfl)).vgaLine
  | ntsc =>
    simp only [h] at hmode ⊢
    exact State.rasterInv_of_standard (std := .ntsc) hmode (hcomposite .ntsc (by rw [h]; rfl)).compositeLine
  | pal =>
    simp only [h] at hmode ⊢
    exact State.rasterInv_of_standard (std := .pal) hmode (hcomposite .pal (by rw [h]; rfl)).compositeLine

theorem HandlerEffect.rasterInv {s t : State} {q : Source} (h : HandlerEffect s q t) (hs : s.RasterInv) :
    t.RasterInv := by
  cases h with
  | lock => exact hs.of_same rfl rfl rfl rfl rfl rfl rfl rfl rfl rfl (.inl rfl) rfl fun hbusy => ⟨hbusy, rfl⟩
  | raster => exact hs.rasterLine
  | rewind =>
    have hdma := s.rewind_dma
    refine hs.of_same ?_ ?_ ?_ ?_ ?_ ?_ ?_ ?_ ?_ ?_ (.inr s.rewind_ldpend) (congrArg (fun d => d.flight.origin) hdma)
      fun hbusy => ⟨(congrArg Dma.busy hdma).symm.trans hbusy, congrArg (fun d => d.flight.fromSlot) hdma⟩
    all_goals simp
  | complete => exact hs.of_same rfl rfl rfl rfl rfl rfl rfl rfl rfl rfl (.inl rfl) rfl fun hbusy => ⟨hbusy, rfl⟩

/-! The commands. -/

/-- Off the mode is Off: the part of the lifecycle invariant that the raster's needs. -/
def State.OffIsOff (s : State) : Prop := s.life = .off → s.mode = .off

theorem State.OffIsOff.stop {s : State} (h : s.OffIsOff) : s.stop.mode = .off := by
  cases hlife : s.life with
  | off =>
    rw [State.stop_of_off hlife]
    exact h hlife
  | running =>
    rw [State.stop_of_running hlife]
    rfl

/-- A mode that the solver's timing starts has a valid raster at its first line (40_modeline.md R81). -/
theorem State.startMode_vgaInv {s : State} {margin w : Nat} {win : Window} {mode : Mode}
    (hv : ValidTiming margin w s.fb.height (mode == .color) win s.tim) : (s.startMode mode).VgaInv where
  xscale := hv.xscale.1
  colorXscale := fun h => hv.colorXscale (beq_iff_eq.2 h)
  horizontal := hv.horizontal
  vertical := hv.vertical
  picture := hv.picture
  lines := hv.lines
  doubling := hv.yscale
  line := Nat.zero_lt_of_lt hv.vertical.2
  sub := hv.yscale.1

theorem State.startMode_compositeInv {s : State} {std : Standard} (htim : s.tim = compositeTiming std) :
    (s.startMode (modeOfStandard std)).CompositeInv std where
  tim := htim
  line := (cTotal_bounds std).1
  phase := (cCycle_bounds std).1
  slot0 := (congrArg List.length (armSlot_modeOfStandard std _)).trans List.length_replicate
  slot1 := (congrArg List.length (armSlot_modeOfStandard std _)).trans List.length_replicate
  vsync := rfl
  armed := isVga_modeOfStandard std
  ldpend := rfl
  tag := by
    rw [State.startMode_dma, State.armDma_modeOfStandard]
    exact Nat.zero_lt_two
  source := by
    rw [State.startMode_dma, State.armDma_modeOfStandard]
    exact nofun

theorem bufferOf_height {mode : Mode} (h : mode ≠ .off) (w h' : Nat) (base : Addr) :
    (bufferOf mode w h' base).height = h' := by
  cases mode
  case off => exact absurd rfl h
  all_goals rfl

theorem StartEffect.rasterInv {s t : State} (h : StartEffect s t) (hs : s.OffIsOff) : t.RasterInv := by
  cases h with
  | rejected | outOfMemory => exact State.rasterInv_of_off hs.stop
  | startVga hmode hmin hmax hheight htim =>
    refine State.rasterInv_of_vga hmode (State.startMode_vgaInv (margin := Config.hmarginClk) (w := s.argWidth)
      (win := s.win) ?_)
    have hrows := bufferOf_height (ne_off_of_isVga hmode) s.argWidth s.argHeight
    change ValidTiming _ _ (bufferOf _ _ _ _).height _ _ _
    rw [hrows]
    exact solve_valid htim
  | startComposite std => exact State.rasterInv_of_standard rfl (State.startMode_compositeInv rfl)

theorem StartEffect.offIsOff {s t : State} (h : StartEffect s t) (hs : s.OffIsOff) : t.OffIsOff := by
  cases h with
  | rejected | outOfMemory => exact fun _ => hs.stop
  | startVga | startComposite => exact nofun

/-- What the steps keep together. -/
def State.RasterKept (s : State) : Prop := s.OffIsOff ∧ s.RasterInv

theorem State.KeepsMode.rasterKept {s t : State} (h : s.KeepsMode t) (hs : s.RasterKept) : t.RasterKept := by
  obtain ⟨hoff, hraster⟩ := hs
  exact ⟨fun hlife => h.mode.trans (hoff (h.life.symm.trans hlife)), h.rasterInv hraster⟩

theorem CommandEffect.rasterKept {s t : State} {i : Instr} (h : CommandEffect s i t) (hs : s.RasterKept) :
    t.RasterKept := by
  have hoff := hs.1
  rcases h.cases_mode with h | rfl | h
  · exact ⟨h.offIsOff hoff, h.rasterInv hoff⟩
  · exact ⟨fun _ => hoff.stop, State.rasterInv_of_off hoff.stop⟩
  · exact h.rasterKept hs

theorem HandlerEffect.rasterKept {s t : State} {q : Source} (h : HandlerEffect s q t) (hs : s.RasterKept) :
    t.RasterKept := by
  obtain ⟨hoff, hraster⟩ := hs
  have hsame : t.life = s.life ∧ t.mode = s.mode := by
    cases h <;> simp
  exact ⟨fun hlife => hsame.2.trans (hoff (hsame.1.symm.trans hlife)), h.rasterInv hraster⟩

theorem AccessEffect.rasterKept {s t : State} (h : AccessEffect s t) (hs : s.RasterKept) : t.RasterKept := by
  rcases h.cases_mode with ⟨i, h⟩ | h
  · exact h.rasterKept hs
  · exact h.rasterKept hs

theorem step_keeps_rasterKept {s t : State} (hs : s.RasterKept) (hstep : step s = .next t) : t.RasterKept := by
  refine step_keeps (Inv := State.RasterKept) ?pop ?enter ?run ?leave ?tick ?access hs hstep
  case pop => exact fun s rest hs => State.KeepsMode.rasterKept (by constructor <;> simp) hs
  case enter =>
    exact fun s q _ hs => ⟨hs.1, hs.2.of_same rfl rfl rfl rfl rfl rfl rfl rfl rfl rfl (.inl rfl) rfl
      fun hbusy => ⟨hbusy, rfl⟩⟩
  case run => exact fun i s t hs h => exec_cases h (fun _ h => h.rasterKept hs) (fun h => h.rasterKept hs)
  case leave => exact fun s hs => s.leaveHandler_keepsMode.rasterKept hs
  case tick =>
    exact fun s hs => ⟨fun hlife => s.tick_mode.trans (hs.1 (s.tick_life.symm.trans hlife)), hs.2.tick⟩
  case access => exact fun s t hs h _ => h.rasterKept hs

/-- Settles O60: every part of a step keeps the raster invariant beside the mode of Off; the tag of a slot is below
2. -/
theorem rasterInvariantIsKept : Obligations.RasterInvariantIsKept := by
  unfold Obligations.RasterInvariantIsKept
  refine ⟨fun s t hlife hs hstep => ?kept, fun s hs hmode => ?tag⟩
  case kept =>
    obtain ⟨-, hraster⟩ := step_keeps_rasterKept ⟨fun hoff => (hlife.1 hoff).mode, hs⟩ hstep
    exact hraster
  case tag =>
    have htag {std : Standard} (h : s.mode = modeOfStandard std) : s.register 0x44 = 0#32 ∨ s.register 0x44 = 1#32 := by
      have hlt := (hs.2 std (standard_eq_some_iff.2 h)).tag
      rw [State.register_dmaSrc_of_standard h]
      bv_omega
    exact hmode.elim (htag (std := .ntsc)) (htag (std := .pal))

/-- Settles O11: memory is empty, and the machine is Off with every field at its reset value. -/
theorem resetMeetsTheInvariants : Obligations.ResetMeetsTheInvariants := by
  unfold Obligations.ResetMeetsTheInvariants
  refine ⟨⟨List.Pairwise.nil, nofun⟩, .of_off rfl ?_, State.rasterInv_of_off rfl⟩
  exact ⟨rfl, rfl, rfl, rfl, rfl, rfl, rfl, rfl, rfl, rfl, rfl, rfl, rfl⟩

end Sys2Proof.Machine

/-! ### The sync pins and the lock (43_scanline_vga.md R109, R114, R115, R118). -/

namespace Sys2Proof.Machine

/-- Settles O44: the two pins by their routes. -/
theorem syncPinLevels : Obligations.SyncPinLevels := by
  unfold Obligations.SyncPinLevels
  intro s
  refine ⟨fun h => ?_, fun h => ?_, fun h => ?_, fun h => ?_⟩
  · rw [State.hsyncPin, h]
  · rw [State.hsyncPin, h]
  · rw [State.vsyncPin, h]
  · rw [State.vsyncPin, h]

/-- The lock window of R114 for a positive period. -/
theorem inLockWindow_iff (sample e : Nat) {ptot : Nat} (h : 0 < ptot) : inLockWindow sample e ptot = true ↔
    ((sample : Int) - e) % ptot = 0 ∨ ((sample : Int) - e) % ptot = 1 := by
  have hpos : 0 ≤ ((sample : Int) - e) % ptot := Int.emod_nonneg _ (by omega)
  rw [inLockWindow, subModPeriod, if_neg h.ne', Bool.or_eq_true, decide_eq_true_eq, decide_eq_true_eq]
  omega

theorem exec_evLt_of_not_synced {s : State} (h : s.synced = false) : exec .evLt s = .next s.lockStep := by
  change Host.Outcome.next (if s.synced then s.rasterLine else s.lockStep) = _
  rw [if_neg (by rw [h]; nofun)]

/-- Settles O45: the lock step by whether the sample is in the window. -/
theorem lockStepLocksInItsWindow : Obligations.LockStepLocksInItsWindow := by
  unfold Obligations.LockStepLocksInItsWindow
  intro s hsynced hperiod r
  have hlocks : s.locks = true ↔ r = 0 ∨ r = 1 := inLockWindow_iff _ _ hperiod
  rw [exec_evLt_of_not_synced hsynced]
  exact ⟨fun h => by rw [State.lockStep_of_locks (hlocks.2 h)],
    fun h => by rw [State.lockStep_of_not_locks (Bool.eq_false_iff.2 (mt hlocks.1 h))]⟩

/-- After `k` ticks both timers have counted `k`, modulo their periods (R109, R111). -/
theorem State.tick_iterate {s : State} (hpwm : s.pwm.en = true) (hlt : s.lt.en = true)
    (hcnt : s.pwm.cnt < s.pwm.period) (hltcnt : s.lt.cnt < s.lt.period) (k : Nat) :
    (State.tick^[k] s).pwm = { s.pwm with cnt := (s.pwm.cnt + k) % s.pwm.period } ∧
      (State.tick^[k] s).lt = { s.lt with cnt := (s.lt.cnt + k) % s.lt.period } := by
  induction k with
  | zero =>
    rw [Nat.add_zero, Nat.add_zero, Nat.mod_eq_of_lt hcnt, Nat.mod_eq_of_lt hltcnt]
    exact ⟨rfl, rfl⟩
  | succ k ih =>
    obtain ⟨ihpwm, ihlt⟩ := ih
    rw [Function.iterate_succ_apply']
    generalize State.tick^[k] s = u at *
    have hpwmTick := State.tick_pwm_of_pos (s := u) fun _ => by rw [ihpwm]; exact Nat.zero_lt_of_lt hcnt
    have hltTick := State.tick_lt_of_pos (s := u) fun _ => by rw [ihlt]; exact Nat.zero_lt_of_lt hltcnt
    rw [hpwmTick, hltTick, ihpwm, ihlt]
    simp only [hpwm, hlt, if_true, Nat.mod_add_mod, Nat.add_assoc, and_self]

/-- A remainder of a number below twice the period. -/
theorem mod_of_lt_two_mul {x p : Nat} (h : x < 2 * p) : x % p = if x < p then x else x - p := by
  split
  · exact Nat.mod_eq_of_lt (by assumption)
  · rw [Nat.mod_eq_sub_mod (by omega), Nat.mod_eq_of_lt (by omega)]

/-- The window of a sample below the period, where the window itself does not wrap (R114). -/
theorem inLockWindow_iff_of_lt {sample e ptot : Nat} (hs : sample < ptot) (he : e + 1 < ptot) :
    inLockWindow sample e ptot = true ↔ sample = e ∨ sample = e + 1 := by
  rw [inLockWindow_iff _ _ (by omega)]
  rcases Nat.lt_or_ge sample e with hlt | hge
  · have hmod : ((sample : Int) - e) % ptot = sample - e + ptot := by
      rw [← Int.add_emod_right]
      exact Int.emod_eq_of_lt (by omega) (by omega)
    omega
  · have hmod : ((sample : Int) - e) % ptot = sample - e := Int.emod_eq_of_lt (by omega) (by omega)
    omega

/-- Settles O46: the timers by `State.tick_iterate`, the walk by the two numbers that the window holds. -/
theorem sampleWalkReachesTheLockWindow : Obligations.SampleWalkReachesTheLockWindow := by
  unfold Obligations.SampleWalkReachesTheLockWindow
  refine ⟨fun s P hP hpwm hlt hperiod hcnt hzero => ?timers, fun P E s0 hE hs0 => ?walk⟩
  case timers =>
    have hcount (hpos : 0 < s.lt.period) (k : Nat) : (State.tick^[k] s).lt.cnt = k % s.lt.period ∧
        (State.tick^[k] s).pwm.cnt = (s.pwm.cnt + k) % P := by
      obtain ⟨hp, hl⟩ := State.tick_iterate hpwm hlt (by omega) (by omega) k
      rw [hp, hl, hzero, Nat.zero_add, hperiod]
      exact ⟨rfl, rfl⟩
    have hnot {p k : Nat} (h0 : 0 < k) (hk : k < p) : k % p ≠ 0 := by
      rw [Nat.mod_eq_of_lt hk]
      omega
    constructor
    · intro hltPeriod
      rw [hltPeriod] at hcount
      exact ⟨((hcount (by omega) _).1).trans (Nat.mod_self _), (hcount (by omega) _).2,
        fun k h0 hk => by rw [(hcount (by omega) k).1]; exact hnot h0 hk⟩
    · intro hltPeriod
      rw [hltPeriod] at hcount
      refine ⟨((hcount (by omega) _).1).trans (Nat.mod_self _), ?_,
        fun k h0 hk => by rw [(hcount (by omega) k).1]; exact hnot h0 hk⟩
      rw [(hcount (by omega) P).2, Nat.add_mod_right, Nat.mod_eq_of_lt hcnt]
  case walk =>
    intro n
    have hn : n = if s0 = E then 0 else if s0 ≤ E then s0 + P - (E + 1) else s0 - (E + 1) := by
      simp only [n]
      rw [mod_of_lt_two_mul (by omega)]
      split_ifs <;> omega
    have hlt (m : Nat) : (s0 + P - m) % P < P := Nat.mod_lt _ (by omega)
    have hposition (m : Nat) (hm : m < P) : (s0 + P - m) % P = if m ≤ s0 then s0 - m else s0 + P - m := by
      rw [mod_of_lt_two_mul (by omega)]
      split_ifs <;> omega
    have hmax : n ≤ P - 1 := by
      rw [hn]
      split_ifs <;> omega
    refine ⟨hmax, ?_, fun m hm => Bool.eq_false_iff.2 fun hin => ?_⟩
    · rw [inLockWindow_iff_of_lt (hlt n) hE, hposition n (by omega), hn]
      split_ifs <;> omega
    · rw [inLockWindow_iff_of_lt (hlt m) hE, hposition m (by omega)] at hin
      rw [hn] at hm
      split_ifs at hin hm <;> omega

end Sys2Proof.Machine

/-! ### The DMA channel in one tick (43_scanline_vga.md R121, R123). -/

namespace Sys2Proof.Machine

section
variable (s : State)

/-- The record of a transfer that completes is that of its start, with its units (R131; log 21). -/
theorem State.tick_lastSent :
    s.tick.lastSent = if s.completes then some s.dma.flight.sent else s.lastSent := by
  have htimers : s.tickPwm.tickLt.completes = s.completes := by
    unfold State.completes State.transferTime State.unitTime
    simp
  have hdma : s.tickPwm.tickLt.dma = s.dma := by simp
  have hlast : s.tickPwm.tickLt.lastSent = s.lastSent := by simp
  simp only [State.tick, State.raiseIf_lastSent, State.tickDma, htimers, hdma]
  split
  · rw [State.dmaComplete, State.ageFlight, hdma]
    rfl
  · split <;> exact hlast

theorem State.tick_dma_of_completes (h : s.completes = true) : s.tick.dma = { s.dma with
    src := s.dma.src + BitVec.ofNat 32 s.dma.len, busy := false, done := true
    flight := { s.dma.flight with age := s.dma.flight.age + 1 } } := by
  rw [s.tick_dma, State.tickDma, if_pos h]
  rfl

theorem State.tick_dma_of_busy (hc : s.completes = false) (h : s.dma.busy = true) :
    s.tick.dma = { s.dma with flight := { s.dma.flight with age := s.dma.flight.age + 1 } } := by
  rw [s.tick_dma, State.tickDma, if_neg (Bool.eq_false_iff.1 hc), if_pos h]
  rfl

theorem State.completes_of_idle (h : s.dma.busy = false) : s.completes = false := by
  rw [State.completes, h, Bool.false_and]

theorem State.tick_dma_of_idle (h : s.dma.busy = false) : s.tick.dma = s.dma := by
  rw [s.tick_dma, State.tickDma, if_neg (Bool.eq_false_iff.1 (s.completes_of_idle h)),
    if_neg (Bool.eq_false_iff.1 h)]

/-- Where no transfer completes the DMA's interrupt line stays (R123). -/
theorem State.tick_nvic_dma (h : s.completes = false) : s.tick.nvic.dma = s.nvic.dma := by
  have hpend : (s.tick.nvic.line .dma).pend = (s.nvic.line .dma).pend := by
    rw [s.tick_pend, State.raisesDma, h, Bool.false_and, Bool.false_and, Bool.or_false]
  have hline := s.tick_nvic_line .dma
  rw [hpend] at hline
  exact hline

end

/-- The time of a unit on its destination, with the SPI at 16 bits (R121). -/
theorem State.unitTime_eq {s : State} (hbits : s.spi.bits = 16) :
    s.unitTime = match s.dma.dst with | .spi => 16 * s.spi.div | .port => s.port.div | .none => 0 := by
  unfold State.unitTime
  cases s.dma.dst <;> simp only [hbits]

/-- Settles O52: the tick by whether the transfer in flight completes in it. -/
theorem transferCompletesAfterItsTime : Obligations.TransferCompletesAfterItsTime := by
  unfold Obligations.TransferCompletesAfterItsTime
  intro s t older
  refine ⟨fun hidle => ?idle, fun hbusy hbits => ?busy⟩
  case idle =>
    have hc := s.completes_of_idle hidle
    refine ⟨s.tick_dma_of_idle hidle, ?_, s.tick_nvic_dma hc⟩
    rw [s.tick_lastSent, if_neg (Bool.eq_false_iff.1 hc)]
  case busy =>
    intro U total
    have hunit : s.unitTime = U := State.unitTime_eq hbits
    have htime : s.transferTime = total := by rw [State.transferTime, hunit]
    have hcompletes : s.completes = true ↔ total ≤ s.dma.flight.age + 1 := by
      rw [State.completes, hbusy, Bool.true_and, decide_eq_true_eq, htime]
    refine ⟨fun hend => ?ends, fun hearly => ?early⟩
    case ends =>
      have hc := hcompletes.2 hend
      refine ⟨s.tick_dma_of_completes hc, ?_, ?_⟩
      · rw [s.tick_lastSent, if_pos hc]
        rfl
      · refine (s.tick_pend_iff .dma).trans ?_
        change _ ∨ _ ∧ (s.completes && s.dma.irq) = true ↔ _
        rw [hc, Bool.true_and]
        rfl
    case early =>
      have hc := Bool.eq_false_iff.2 (mt hcompletes.1 (not_le.2 hearly))
      refine ⟨s.tick_dma_of_busy hc hbusy, ?_, s.tick_nvic_dma hc⟩
      rw [s.tick_lastSent, if_neg (Bool.eq_false_iff.1 hc)]

end Sys2Proof.Machine

/-! ### The register window (10_state.md R16 to R18, R20; 20_memory.md R49). -/

namespace Sys2Proof.Machine

/-- The address of an offset of the window has that offset (R16). -/
theorem windowOffset_add (off : BitVec 8) : windowOffset (Config.blockBase + off.setWidth 32) = some off := by
  have hsub : Config.blockBase + off.setWidth 32 - Config.blockBase = off.setWidth 32 := by
    rw [BitVec.add_comm, BitVec.add_sub_cancel]
  have hlt : (off.setWidth 32).toNat < 256 := by
    rw [BitVec.toNat_setWidth_of_le (by decide)]
    exact off.isLt
  have hback : (off.setWidth 32).setWidth 8 = off := by
    apply BitVec.eq_of_toNat_eq
    rw [BitVec.toNat_setWidth, BitVec.toNat_setWidth_of_le (by decide)]
    exact Nat.mod_eq_of_lt off.isLt
  rw [windowOffset, hsub, if_pos hlt, hback]

theorem windowOffset_of_le {a : Addr} (h : 256 ≤ (a - Config.blockBase).toNat) : windowOffset a = none :=
  if_neg (not_lt.2 h)

/-- An access by address in the window is the access by its offset (R16; log 5). -/
theorem hostAccess_busRead_window (off : BitVec 8) (w : Width) (s : State) :
    hostAccess (.busRead (Config.blockBase + off.setWidth 32) w) s = hostAccess (.regRead off w) s := by
  simp only [hostAccess, windowOffset_add]

theorem hostAccess_busWrite_window (off : BitVec 8) (w : Width) (v : Word) (s : State) :
    hostAccess (.busWrite (Config.blockBase + off.setWidth 32) w v) s = hostAccess (.regWrite off w v) s := by
  simp only [hostAccess, windowOffset_add]

theorem registerShape_iff (off : BitVec 8) (w : Width) :
    registerShape off w = true ↔ w = .word ∧ off.toNat % 4 = 0 := by
  rw [registerShape, Bool.and_eq_true, beq_iff_eq, beq_iff_eq]

/-- Settles O14: without the register shape both accesses raise BUS. -/
theorem badRegisterShapeRaisesBus : Obligations.BadRegisterShapeRaisesBus := by
  unfold Obligations.BadRegisterShapeRaisesBus
  intro s off w v hbad a readFails writeFails
  have hshape : ¬registerShape off w = true := by
    rw [registerShape_iff]
    tauto
  have hread : hostAccess (.regRead off w) s = readFails := by
    change Host.Outcome.next (s.readWindow off w) = _
    rw [State.readWindow, if_neg hshape]
    rfl
  have hwrite : hostAccess (.regWrite off w v) s = writeFails := if_neg hshape
  exact ⟨hread, (hostAccess_busRead_window off w s).trans hread, hwrite,
    (hostAccess_busWrite_window off w v s).trans hwrite⟩

section
variable (s : State) {off : BitVec 8} (haligned : off.toNat % 4 = 0)
include haligned

theorem hostAccess_regRead_word :
    hostAccess (.regRead off .word) s = .next { s with busData := s.register off.toNat } := by
  change Host.Outcome.next (s.readWindow off .word) = _
  rw [State.readWindow, if_pos ((registerShape_iff off .word).2 ⟨rfl, haligned⟩)]

theorem hostAccess_regWrite_word (hne : off ≠ 0) (v : Word) :
    hostAccess (.regWrite off .word v) s = .next (s.writeRegister off.toNat v) := by
  change hostWriteWindow off .word v s = _
  rw [hostWriteWindow, if_pos ((registerShape_iff off .word).2 ⟨rfl, haligned⟩), if_neg hne]

end

/-- A write to any other offset than those of ARG0 to ARG3 and CFG is ignored (R17). -/
theorem State.writeRegister_of_ne (s : State) (v : Word) {off : Nat}
    (h : off ≠ 4 ∧ off ≠ 8 ∧ off ≠ 0x0C ∧ off ≠ 0x10 ∧ off ≠ 0x2C) : s.writeRegister off v = s := by
  unfold State.writeRegister
  split
  case h_6 => rfl
  all_goals omega

/-- A reserved offset reads 0 (R16). -/
theorem State.register_of_reserved (s : State) {off : Nat} (h : 0x4C ≤ off ∧ off < 0x80 ∨ 0xD8 ≤ off) :
    s.register off = 0 := by
  unfold State.register
  split
  case h_41 => rfl
  all_goals omega

theorem State.dmaSrcRegister_eq (s : State) :
    s.dmaSrcRegister = if s.mode = .ntsc ∨ s.mode = .pal then s.dma.flight.origin else s.dma.src := by
  unfold State.dmaSrcRegister
  cases s.mode <;> rfl

/-- The register at the aligned offset of an entry of R16's table reads its value. -/
def State.Shows (s : State) (p : BitVec 8 × Word) : Prop :=
  registerShape p.1 .word = true ∧ s.register p.1.toNat = p.2

theorem State.Shows.of_register {s : State} {off : BitVec 8} {u : Word} (hshape : registerShape off .word = true)
    (hread : s.register off.toNat = u) : s.Shows (off, u) := ⟨hshape, hread⟩

/-- The low bits of a word, zero-extended. -/
theorem setWidth_setWidth_eq_and (v : Word) {k : Nat} (hk : k ≤ 32) :
    (v.setWidth k).setWidth 32 = v &&& BitVec.ofNat 32 (2 ^ k - 1) := by
  apply BitVec.eq_of_toNat_eq
  have hlt : 2 ^ k - 1 < 2 ^ 32 := lt_of_lt_of_le (Nat.sub_one_lt (by simp)) (Nat.pow_le_pow_right (by decide) hk)
  rw [BitVec.toNat_setWidth_of_le hk, BitVec.toNat_setWidth, BitVec.toNat_and, BitVec.toNat_ofNat,
    Nat.mod_eq_of_lt hlt, Nat.and_two_pow_sub_one_eq_mod]

/-- Settles O15: a write by its offset, a read by the table of R16, and both by address as by offset. -/
theorem registerWritesAndReads : Obligations.RegisterWritesAndReads := by
  unfold Obligations.RegisterWritesAndReads
  intro s v
  refine ⟨rfl, rfl, rfl, rfl, rfl, ⟨_, rfl, rfl, setWidth_setWidth_eq_and v (show 2 ≤ 32 by decide)⟩,
    fun off haligned hother => ?ignored, ?table, fun off haligned hreserved => ?reserved, fun off _ =>
      ⟨hostAccess_busRead_window off .word s, hostAccess_busWrite_window off .word v s⟩⟩
  case ignored =>
    simp only [List.mem_cons, List.not_mem_nil, or_false, not_or] at hother
    obtain ⟨hcmd, ha0, ha1, ha2, ha3, hcfg⟩ := hother
    rw [hostAccess_regWrite_word s haligned hcmd, s.writeRegister_of_ne v]
    exact ⟨fun h => ha0 (BitVec.eq_of_toNat_eq h), fun h => ha1 (BitVec.eq_of_toNat_eq h),
      fun h => ha2 (BitVec.eq_of_toNat_eq h), fun h => ha3 (BitVec.eq_of_toNat_eq h),
      fun h => hcfg (BitVec.eq_of_toNat_eq h)⟩
  case table =>
    intro p hp
    suffices hentry : s.Shows p by
      rw [hostAccess_regRead_word s ((registerShape_iff _ _).1 hentry.1).2, hentry.2]
    revert p
    dsimp only
    iterate 40 refine List.forall_mem_cons.2 ⟨.of_register rfl rfl, ?_⟩
    exact List.forall_mem_singleton.2 (.of_register rfl s.dmaSrcRegister_eq)
  case reserved =>
    rw [hostAccess_regRead_word s haligned, s.register_of_reserved hreserved]
    rfl

end Sys2Proof.Machine

/-! ### Pixels: what SET_PIXEL stores is what GET_PIXEL reads (41_framebuffer.md R94). -/

namespace Sys2Proof.Machine

/-- The place of a pixel depends on the mode and on the buffer only. -/
theorem State.pixelBit_congr {s t : State} (hfb : t.fb = s.fb) (x y : Nat) : t.pixelBit x y = s.pixelBit x y := by
  rw [State.pixelBit, State.pixelBit, hfb]

theorem State.pixelAddr_congr {s t : State} (hmode : t.mode = s.mode) (hfb : t.fb = s.fb) (x y : Nat) :
    t.pixelAddr x y = s.pixelAddr x y := by
  rw [State.pixelAddr_eq, State.pixelAddr_eq, State.pixelBit_congr hfb, hmode, hfb]

/-- What SET_PIXEL in bounds answers: the place of every pixel stays, and the bytes are those of a one-byte store. -/
theorem setPixel_next {s t : State} (hwf : s.mem.wf) (hin : s.inBounds s.argX s.argY = true)
    (h : exec .setPixel s = .next t) : t.mode = s.mode ∧ t.fb = s.fb ∧ t.argX = s.argX ∧ t.argY = s.argY ∧
      ∀ x, t.byteAt x = if x = s.pixelAddr s.argX s.argY then s.pixelByte s.argX s.argY else s.byteAt x := by
  rw [exec_setPixel_of_inBounds hin] at h
  cases h
  exact ⟨by simp, by simp, by simp [State.argX], by simp [State.argY], State.byteAt_store_byte hwf _ _⟩

/-- Settles O34: the byte that GET_PIXEL reads is the one that SET_PIXEL stored. -/
theorem pixelRoundTrip : Obligations.PixelRoundTrip := by
  unfold Obligations.PixelRoundTrip
  intro s t hwf hvalid hx hy hset
  have hin : s.inBounds s.argX s.argY = true := (s.inBounds_iff _ _).2 ⟨hvalid, hx, hy⟩
  obtain ⟨hmode, hfb, hargX, hargY, hbyte⟩ := setPixel_next hwf hin hset
  have hread : t.byteAt (t.pixelAddr t.argX t.argY) = s.pixelByte s.argX s.argY := by
    rw [State.pixelAddr_congr hmode hfb, hargX, hargY, hbyte, if_pos rfl]
  have hinT : t.inBounds t.argX t.argY = true := by
    rw [State.inBounds, hfb, hargX, hargY]
    exact hin
  refine ⟨_, exec_getPixel_of_inBounds hinT, rfl, fun hmono => ?mono, fun hother => ?byte⟩
  case mono =>
    change t.pixelValue t.argX t.argY = _
    rw [State.pixelValue_of_mono (hmode.trans hmono), hread, State.pixelByte_of_mono hmono, State.pixelBit_congr hfb,
      hargX, hargY, setBit_getLsbD _ _ _ (Nat.mod_lt _ (by decide)) (Nat.mod_lt _ (by decide)), if_pos rfl,
      State.argBit, ← BitVec.setWidth_one]
    exact setWidth_setWidth_eq_and s.args.a2 (by decide)
  case byte =>
    change t.pixelValue t.argX t.argY = _
    rw [State.pixelValue_of_ne_mono (hmode ▸ hother), hread, State.pixelByte_of_ne_mono hother]
    exact setWidth_setWidth_eq_and s.args.a2 (by decide)

end Sys2Proof.Machine

/-! ### The layout of a buffer: pixels and guard words (41_framebuffer.md R86 to R90, R94). -/

namespace Sys2Proof.Machine

/-- An address is the base plus an offset exactly if its offset from the base is that. -/
theorem addr_eq_add_iff {a base : Addr} {n : Nat} (hn : n < 2 ^ 32) :
    a = base + BitVec.ofNat 32 n ↔ (a - base).toNat = n := by
  constructor
  · rintro rfl
    exact addr_add_sub_toNat base hn
  · rintro rfl
    exact (addr_add_offset base a).symm

theorem State.guardByte_iff (s : State) (a : Addr) : s.guardByte a = true ↔
    s.mode = .mono ∧ s.fb.valid = true ∧ (a - s.fb.base).toNat < s.fb.size ∧
      (s.fb.wpl - 2) * 2 ≤ (a - s.fb.base).toNat % (s.fb.wpl * 2) := by
  simp [State.guardByte, and_assoc]

theorem monoWpl_eq (w : Nat) : monoWpl w = (w + 31) / 32 * 2 + 2 := rfl

/-- The last four bytes of each row of `wpl` halfwords, as offsets (R90). -/
theorem guardOffset_iff {wpl h n : Nat} (hwpl : 2 ≤ wpl) : n < wpl * 2 * h ∧ (wpl - 2) * 2 ≤ n % (wpl * 2) ↔
    ∃ row k, row < h ∧ k < 4 ∧ n = row * wpl * 2 + (wpl - 2) * 2 + k := by
  have hpos : 0 < wpl * 2 := by omega
  constructor
  · rintro ⟨hin, hlast⟩
    have hmod := Nat.mod_lt n hpos
    have hsplit : n / (wpl * 2) * wpl * 2 + n % (wpl * 2) = n := by
      rw [Nat.mul_assoc, Nat.mul_comm]
      exact Nat.div_add_mod ..
    exact ⟨n / (wpl * 2), n % (wpl * 2) - (wpl - 2) * 2, Nat.div_lt_of_lt_mul hin, by omega, by omega⟩
  · rintro ⟨row, k, hrow, hk, rfl⟩
    have hrows : wpl * 2 * (row + 1) ≤ wpl * 2 * h := Nat.mul_le_mul_left _ hrow
    have hoff : row * wpl * 2 + (wpl - 2) * 2 + k = wpl * 2 * row + ((wpl - 2) * 2 + k) := by ring
    rw [hoff, Nat.mul_add_mod, Nat.mod_eq_of_lt (by omega)]
    exact ⟨by rw [Nat.mul_add] at hrows; omega, by omega⟩

/-- Two places in rows of one length are equal only in the same row at the same offset. -/
theorem row_offset_inj {stride x y x' y' : Nat} (hx : x < stride) (hx' : x' < stride)
    (h : y * stride + x = y' * stride + x') : x = x' ∧ y = y' := by
  have hmod := congrArg (· % stride) h
  have hdiv := congrArg (· / stride) h
  simp only [Nat.mul_add_mod', Nat.mod_eq_of_lt hx, Nat.mod_eq_of_lt hx'] at hmod
  have hpos : 0 < stride := by omega
  simp only [Nat.mul_comm _ stride, Nat.mul_add_div hpos, Nat.div_eq_of_lt hx, Nat.div_eq_of_lt hx'] at hdiv
  exact ⟨hmod, hdiv⟩

/-- The pixel's bit stays in its halfword (R46, R92). -/
theorem xor_fifteen_div (x : Nat) : (x ^^^ 15) / 16 = x / 16 := by
  rw [show 16 = 2 ^ 4 from rfl, Nat.xor_div_two_pow]
  exact Nat.xor_zero _

/-- The bits of a row's pixels lie before its guard words (R86, R90). -/
theorem xor_fifteen_lt {x w : Nat} (hx : x < w) : x ^^^ 15 < (monoWpl w - 2) * 16 := by
  have := xor_fifteen_div x
  rw [monoWpl_eq]
  omega

/-! A Mono buffer as BEGIN lays it out. -/

section
variable {s : State} {w h : Nat} (hfb : s.fb = bufferOf .mono w h s.fb.base)
include hfb

theorem State.pixelBit_mono (x y : Nat) : s.pixelBit x y = y * (monoWpl w * 16) + (x ^^^ 15) := by
  rw [State.pixelBit, hfb]
  rfl

/-- The byte of a pixel, as its offset in the buffer: in its row, before the guard words. -/
theorem State.pixelBit_div_mono {x : Nat} (hx : x < w) (y : Nat) :
    ∃ k, k < (monoWpl w - 2) * 2 ∧ s.pixelBit x y / 8 = y * (monoWpl w * 2) + k := by
  have hlt := xor_fifteen_lt hx
  refine ⟨(x ^^^ 15) / 8, by omega, ?_⟩
  rw [State.pixelBit_mono hfb, show y * (monoWpl w * 16) = y * (monoWpl w * 2) * 8 by ring]
  omega

theorem State.pixelBit_div_lt_size {x y : Nat} (hx : x < w) (hy : y < h) : s.pixelBit x y / 8 < s.fb.size := by
  obtain ⟨k, hk, hbyte⟩ := State.pixelBit_div_mono hfb hx y
  have hrows : monoWpl w * 2 * (y + 1) ≤ monoWpl w * 2 * h := Nat.mul_le_mul_left _ hy
  have hsize : s.fb.size = monoWpl w * 2 * h := by
    rw [hfb]
    rfl
  rw [hbyte, hsize, Nat.mul_comm y]
  rw [Nat.mul_add] at hrows
  omega

theorem State.pixelBit_inj {x y x' y' : Nat} (hx : x < w) (hx' : x' < w)
    (heq : s.pixelBit x y = s.pixelBit x' y') : x = x' ∧ y = y' := by
  rw [State.pixelBit_mono hfb, State.pixelBit_mono hfb] at heq
  have hlt := xor_fifteen_lt hx
  have hlt' := xor_fifteen_lt hx'
  obtain ⟨hxor, hrow⟩ := row_offset_inj (by omega) (by omega) heq
  exact ⟨Nat.xor_left_injective hxor, hrow⟩

theorem State.guardByte_mono_iff (hmono : s.mode = .mono) (a : Addr) : s.guardByte a = true ↔
    (a - s.fb.base).toNat < monoWpl w * 2 * h ∧
      (monoWpl w - 2) * 2 ≤ (a - s.fb.base).toNat % (monoWpl w * 2) := by
  have hvalid : s.fb.valid = true := by rw [hfb]; rfl
  have hsize : s.fb.size = monoWpl w * 2 * h := by rw [hfb]; rfl
  have hwpl : s.fb.wpl = monoWpl w := by rw [hfb]; rfl
  rw [s.guardByte_iff, hsize, hwpl]
  exact ⟨fun ⟨_, _, hguard⟩ => hguard, fun hguard => ⟨hmono, hvalid, hguard⟩⟩

end

/-- The width of a buffer is what was asked for. -/
theorem bufferOf_width {mode : Mode} (h : mode ≠ .off) (w h' : Nat) (base : Addr) :
    (bufferOf mode w h' base).width = w := by
  cases mode
  case off => exact absurd rfl h
  all_goals rfl

/-! A buffer of bytes, and what SET_PIXEL leaves in each mode. -/

theorem bufferSize_of_ne_mono {mode : Mode} (hoff : mode ≠ .off) (hmono : mode ≠ .mono) (w h : Nat) :
    bufferSize mode w h = w * h := by
  cases mode
  case off => exact absurd rfl hoff
  case mono => exact absurd rfl hmono
  all_goals rfl

theorem addr_add_ofNat_inj {base : Addr} {n m : Nat} (hn : n < 2 ^ 32) (hm : m < 2 ^ 32)
    (heq : base + BitVec.ofNat 32 n = base + BitVec.ofNat 32 m) : n = m := by
  rw [← addr_add_sub_toNat base hn, heq, addr_add_sub_toNat base hm]

theorem State.pixelValue_congr {s t : State} (hmode : t.mode = s.mode) (hfb : t.fb = s.fb) {x y : Nat}
    (hbyte : t.byteAt (s.pixelAddr x y) = s.byteAt (s.pixelAddr x y)) : t.pixelValue x y = s.pixelValue x y := by
  rw [State.pixelValue, State.pixelValue, State.pixelAddr_congr hmode hfb, State.pixelBit_congr hfb, hmode, hbyte]

section
variable {s t : State} {w h x y : Nat} (hfb : s.fb = bufferOf s.mode w h s.fb.base) (hsize : s.fb.size ≤ 98304)
  (hX : s.argX < w) (hY : s.argY < h) (hx : x < w) (hy : y < h) (hne : x ≠ s.argX ∨ y ≠ s.argY)
include hfb hsize hX hY hx hy hne

/-- The other modes: another pixel is another byte (R94). -/
theorem State.pixelAddr_ne_of_ne_mono (hoff : s.mode ≠ .off) (hmono : s.mode ≠ .mono) :
    s.pixelAddr x y ≠ s.pixelAddr s.argX s.argY := by
  have hwidth : s.fb.width = w := by rw [hfb, bufferOf_width hoff]
  have hbytes : s.fb.size = w * h := by rw [hfb, bufferOf_size, bufferSize_of_ne_mono hoff hmono]
  have hin {x y : Nat} (hx : x < w) (hy : y < h) : y * w + x < 2 ^ 32 := by
    have hrows : w * (y + 1) ≤ w * h := Nat.mul_le_mul_left _ hy
    rw [Nat.mul_comm y]
    rw [Nat.mul_add] at hrows
    omega
  rw [State.pixelAddr_of_ne_mono hmono, State.pixelAddr_of_ne_mono hmono, hwidth]
  intro heq
  obtain ⟨hx', hy'⟩ := row_offset_inj hx hX (addr_add_ofNat_inj (hin hx hy) (hin hX hY) heq)
  omega

/-- Mono: another pixel of the same byte is another bit of it (R94). -/
theorem State.pixelBit_mod_ne_of_mono (hmono : s.mode = .mono) (haddr : s.pixelAddr x y = s.pixelAddr s.argX s.argY) :
    s.pixelBit x y % 8 ≠ s.pixelBit s.argX s.argY % 8 := by
  rw [hmono] at hfb
  rw [State.pixelAddr_of_mono hmono, State.pixelAddr_of_mono hmono] at haddr
  have hlt := State.pixelBit_div_lt_size hfb hx hy
  have hltX := State.pixelBit_div_lt_size hfb hX hY
  have hdiv := addr_add_ofNat_inj (by omega) (by omega) haddr
  intro hmod
  obtain ⟨hx', hy'⟩ := State.pixelBit_inj hfb hx hX (by omega : s.pixelBit x y = s.pixelBit s.argX s.argY)
  omega

end

/-- Mono: no pixel's byte is a guard-word byte (R90). -/
theorem State.guardByte_pixelAddr {s : State} {w h x y : Nat} (hmono : s.mode = .mono)
    (hfb : s.fb = bufferOf .mono w h s.fb.base) (hsize : s.fb.size ≤ 98304) (hx : x < w) (hy : y < h) :
    s.guardByte (s.pixelAddr x y) = false := by
  obtain ⟨k, hk, hbyte⟩ := State.pixelBit_div_mono hfb hx y
  have hlt := State.pixelBit_div_lt_size hfb hx hy
  rw [← Bool.not_eq_true, State.guardByte_mono_iff hfb hmono, State.pixelAddr_of_mono hmono,
    addr_add_sub_toNat _ (by omega), hbyte, Nat.mul_add_mod', Nat.mod_eq_of_lt (by omega)]
  omega

/-- Settles O35: another pixel has another byte, or in Mono another bit of the same byte. -/
theorem setPixelTouchesNoOtherPixel : Obligations.SetPixelTouchesNoOtherPixel := by
  unfold Obligations.SetPixelTouchesNoOtherPixel
  intro s t w h hwf hoff hfb hsize hX hY hset
  have hin : s.inBounds s.argX s.argY = true := by
    rw [s.inBounds_iff, hfb, bufferOf_height hoff, bufferOf_valid hoff, bufferOf_width hoff]
    exact ⟨rfl, hX, hY⟩
  obtain ⟨hmode, hfbT, -, -, hbyte⟩ := setPixel_next hwf hin hset
  refine ⟨fun x y hx hy hne => ?other, fun hmono => ?guard⟩
  case other =>
    by_cases haddr : s.pixelAddr x y = s.pixelAddr s.argX s.argY
    · have hmono : s.mode = .mono :=
        not_not.1 fun hm => State.pixelAddr_ne_of_ne_mono hfb hsize hX hY hx hy hne hoff hm haddr
      have hbit := State.pixelBit_mod_ne_of_mono hfb hsize hX hY hx hy hne hmono haddr
      rw [State.pixelValue_of_mono (hmode.trans hmono), State.pixelValue_of_mono hmono,
        State.pixelAddr_congr hmode hfbT, State.pixelBit_congr hfbT, hbyte, if_pos haddr, haddr,
        State.pixelByte_of_mono hmono, setBit_getLsbD _ _ _ (Nat.mod_lt _ (by decide)) (Nat.mod_lt _ (by decide)),
        if_neg hbit]
    · exact State.pixelValue_congr hmode hfbT (by rw [hbyte, if_neg haddr])
  case guard =>
    have hfree := State.guardByte_pixelAddr hmono (by rw [← hmono]; exact hfb) hsize hX hY
    refine ⟨hfree, fun a ha => ?_⟩
    have hne : a ≠ s.pixelAddr s.argX s.argY := by
      rintro rfl
      rw [hfree] at ha
      cases ha
    rw [hbyte, if_neg hne]

theorem State.allocate_eq_none_iff (s : State) (mode : Mode) (w h : Nat) :
    s.allocate mode w h = none ↔ Config.fbCapacityBytes < bufferSize mode w h := by
  simp [State.allocate, fitsCapacity]

theorem State.allocate_eq_some_iff (s t : State) (mode : Mode) (w h : Nat) :
    s.allocate mode w h = some t ↔ bufferSize mode w h ≤ Config.fbCapacityBytes ∧ s.allocated mode w h = t := by
  simp [State.allocate, fitsCapacity]

/-- Settles O31: the record is the model's own, its place is the draw of `drawBase_spec`, and the guard bytes are those
offsets that `guardOffset_iff` names. -/
theorem allocationIsZeroedAndInSram : Obligations.AllocationIsZeroedAndInSram := by
  unfold Obligations.AllocationIsZeroedAndInSram
  intro s mode w h wpl
  refine ⟨fun base => ⟨(bufferOf_size mode w h base).symm, rfl, rfl, fun std => bufferOf_modeOfStandard std w h base⟩,
    s.allocate_eq_none_iff mode w h, fun t halloc hoff => ?allocated, fun hmono hfb hsize a => ?guard,
    fun hmono a => ?none⟩
  case allocated =>
    obtain ⟨hfits, rfl⟩ := (s.allocate_eq_some_iff t mode w h).1 halloc
    obtain ⟨haligned, hlow, hhigh⟩ := drawBase_spec s.draws (bufferSize mode w h) (hfits.trans fbCapacityBytes_le)
    exact ⟨_, rfl, bufferOf_valid hoff .., bufferOf_base hoff .., haligned, hlow, hhigh,
      s.byteAt_allocated mode w h⟩
  case guard =>
    have hwpl : 2 ≤ wpl := Nat.le_add_left 2 _
    have hrow (row k : Nat) (hr : row < h) (hk : k < 4) : row * wpl * 2 + (wpl - 2) * 2 + k < 2 ^ 32 := by
      have hlt := ((guardOffset_iff hwpl).2 ⟨row, k, hr, hk, rfl⟩).1
      have hbytes : s.fb.size = wpl * 2 * h := by rw [hfb]; rfl
      omega
    rw [State.guardByte_mono_iff hfb hmono]
    exact (guardOffset_iff hwpl).trans (exists_congr fun row => exists_congr fun k =>
      and_congr_right fun hr => and_congr_right fun hk => (addr_eq_add_iff (hrow row k hr hk)).symm)
  case none =>
    rw [← Bool.not_eq_true, s.guardByte_iff]
    exact fun hguard => hmono hguard.1

end Sys2Proof.Machine

/-! ### Host accesses of SRAM and of its single bits (20_memory.md R44, R50, R51; 41_framebuffer.md R95). -/

namespace Sys2Proof.Machine

theorem Memory.load_lt (m : Memory) (a : Addr) (n : Nat) : m.load a n < 256 ^ n := by
  induction n generalizing a with
  | zero => exact Nat.zero_lt_one
  | succ n ih =>
    have hbyte := (m.read a.toNat).isLt
    have hrest := ih (a + 1)
    rw [Memory.load, Nat.pow_succ]
    omega

theorem Width.bytes_le (w : Width) : w.bytes ≤ 4 := by
  cases w <;> decide

/-- The value that a read of memory answers is the value loaded (R44). -/
theorem reg_load_toNat (m : Memory) (a : Addr) (w : Width) : (reg (m.load a w.bytes)).toNat = m.load a w.bytes := by
  refine (BitVec.toNat_ofNat _ _).trans (Nat.mod_eq_of_lt ((m.load_lt a w.bytes).trans_le ?_))
  exact Nat.pow_le_pow_right (by decide) w.bytes_le

/-! The write that both accesses perform: GUARD where it touches a guard word, and the store. -/

/-- A host write of `n` bytes to memory (R44, R95). -/
def State.guardedStore (s : State) (a : Addr) (n v : Nat) : State := (s.checkGuard a n).store a n v

theorem State.writeMemory_eq (s : State) (a : Addr) (w : Width) (v : Word) :
    s.writeMemory a w v = s.guardedStore a w.bytes (lowBytes v w.bytes) := rfl

theorem State.writeAlias_eq (s : State) (a : Addr) (v : Word) : s.writeAlias a v =
    s.guardedStore (aliasByte a) 1 (setBit (s.byteAt (aliasByte a)) (aliasBit a) (v.getLsbD 0)).toNat := rfl

section
variable (s : State) (a : Addr) (n v : Nat)

theorem State.checkGuard_changes : s.checkGuard a n = { s with fault := (s.checkGuard a n).fault } := by
  unfold State.checkGuard
  split <;> rfl

theorem State.checkGuard_readsMemory : (s.checkGuard a n).readsMemory = s.readsMemory := by
  rw [s.checkGuard_changes a n]
  rfl

theorem State.guardedStore_mem : (s.guardedStore a n v).mem = s.mem.store a n v := by
  rw [State.guardedStore, State.store_mem, s.checkGuard_changes a n]

theorem State.guardedStore_fault :
    (s.guardedStore a n v).fault = if s.touchesGuard a n then s.fault ||| 0b000010#6 else s.fault :=
  (State.store_fault ..).trans (s.checkGuard_fault a n)

/-- The frame of a host write: memory, FAULT, the units of the transfer in flight and the counter of races. -/
theorem State.guardedStore_changes : s.guardedStore a n v = { s with
    mem := (s.guardedStore a n v).mem, fault := (s.guardedStore a n v).fault, races := (s.guardedStore a n v).races
    dma := { s.dma with flight := { s.dma.flight with units := (s.guardedStore a n v).dma.flight.units } } } := by
  refine ((s.checkGuard a n).store_changes a n v).trans ?_
  simp [State.guardedStore]

theorem State.guardedStore_idle (h : s.readsMemory = false) :
    (s.guardedStore a n v).dma = s.dma ∧ (s.guardedStore a n v).races = s.races := by
  have hstore := State.store_dma_races_of_not_reads ((s.checkGuard_readsMemory a n).trans h) a n v
  simpa [State.guardedStore] using hstore

theorem State.guardedStore_races (h : s.readsMemory = true) : (s.guardedStore a n v).races = s.races + 1 := by
  have hstore := State.store_races_of_reads ((s.checkGuard_readsMemory a n).trans h) a n v
  simpa [State.guardedStore] using hstore

end

/-! Where the accesses go. -/

theorem hostAccess_busRead_memory {a : Addr} (h : 256 ≤ (a - Config.blockBase).toNat) (w : Width) (s : State) :
    hostAccess (.busRead a w) s = s.busReadMemory a w := by
  simp only [hostAccess, windowOffset_of_le h]

theorem hostAccess_busWrite_memory {a : Addr} (h : 256 ≤ (a - Config.blockBase).toNat) (w : Width) (v : Word)
    (s : State) : hostAccess (.busWrite a w v) s = s.busWriteMemory a w v := by
  simp only [hostAccess, windowOffset_of_le h]

theorem inSram_iff (a : Addr) : inSram a = true ↔ 0x20000000 ≤ a.toNat ∧ a.toNat < 0x20000000 + 98304 := by
  rw [inSram, Bool.and_eq_true, decide_eq_true_iff, decide_eq_true_iff]

theorem inAlias_iff (a : Addr) :
    inAlias a = true ↔ 0x22000000 ≤ a.toNat ∧ a.toNat < 0x22000000 + 32 * 98304 := by
  rw [inAlias, Bool.and_eq_true, decide_eq_true_iff, decide_eq_true_iff]

theorem not_inAlias_of_inSram {a : Addr} (h : inSram a = true) : ¬inAlias a = true := by
  rw [inSram_iff] at h
  rw [inAlias_iff]
  omega

theorem aligned_iff (a : Addr) (w : Width) : aligned a w = true ↔ a.toNat % w.bytes = 0 := beq_iff_eq

section
variable (s : State) {a : Addr} (hsram : inSram a = true) (w : Width)
include hsram

theorem State.busReadMemory_of_inSram : s.busReadMemory a w =
    if aligned a w then .next (s.readMemory a w) else .refused .misalignedAccess := by
  rw [State.busReadMemory, if_neg (not_inAlias_of_inSram hsram), if_pos hsram]

theorem State.busWriteMemory_of_inSram (v : Word) : s.busWriteMemory a w v =
    if aligned a w then .next (s.writeMemory a w v) else .refused .misalignedAccess := by
  rw [State.busWriteMemory, if_neg (not_inAlias_of_inSram hsram), if_pos hsram]

end

/-- Settles O37: the access is the load or the guarded store of its bytes. -/
theorem hostWriteIsPerformedWithGuard : Obligations.HostWriteIsPerformedWithGuard := by
  unfold Obligations.HostWriteIsPerformedWithGuard
  intro s a w v hwf hsram hwindow guard touches
  rw [hostAccess_busRead_memory hwindow, hostAccess_busWrite_memory hwindow, s.busReadMemory_of_inSram hsram,
    s.busWriteMemory_of_inSram hsram, s.writeMemory_eq]
  have htouches : s.touchesGuard a w.bytes = true ↔ touches := by
    simp only [s.touchesGuard_iff, s.guardByte_iff]
    exact Iff.rfl
  have hn : w.bytes < 2 ^ 32 := w.bytes_le.trans_lt (by decide)
  refine ⟨fun haligned => ?aligned, fun hmis => ?misaligned⟩
  case aligned =>
    simp only [if_pos ((aligned_iff a w).2 haligned)]
    refine ⟨⟨_, rfl, reg_load_toNat s.mem a w⟩, _, rfl, ?load, fun x hx => ?kept, fun ht => ?guard, fun ht => ?noGuard,
      s.guardedStore_changes .., fun hidle => s.guardedStore_idle _ _ _ (s.readsMemory_eq_false_iff.2 hidle),
      fun hbusy hmem => s.guardedStore_races _ _ _ (s.readsMemory_eq_true_iff.2 ⟨hbusy, hmem⟩)⟩
    case load =>
      rw [s.guardedStore_mem, Memory.load_store hwf a _ _ hn]
      exact Nat.mod_mod ..
    case kept =>
      rw [State.byteAt, s.guardedStore_mem, Memory.read_store hwf a _ _ hn, if_neg (not_lt.2 hx), State.byteAt]
    case guard => rw [s.guardedStore_fault, if_pos (htouches.2 ht)]
    case noGuard => rw [s.guardedStore_fault, if_neg (mt htouches.1 ht)]
  case misaligned =>
    have hnot := mt (aligned_iff a w).1 hmis
    exact ⟨if_neg hnot, if_neg hnot⟩

/-! The bit-band word of a bit of an SRAM byte (R50). -/

/-- The bit-band word of bit `j` of the byte at `a` (R50). -/
def aliasWord (a : Addr) (j : Nat) : Addr := 0x22000000#32 + (a - 0x20000000#32) * 32#32 + BitVec.ofNat 32 (4 * j)

section
variable {a : Addr} (hsram : inSram a = true) {j : Nat} (hj : j < 8)
include hsram hj

theorem aliasWord_toNat : (aliasWord a j).toNat = 0x22000000 + (a.toNat - 0x20000000) * 32 + 4 * j := by
  rw [inSram_iff] at hsram
  simp only [aliasWord, BitVec.toNat_add, BitVec.toNat_mul, BitVec.toNat_sub, BitVec.toNat_ofNat]
  omega

theorem inAlias_aliasWord : inAlias (aliasWord a j) = true := by
  rw [inAlias_iff, aliasWord_toNat hsram hj]
  rw [inSram_iff] at hsram
  omega

theorem aligned_aliasWord : aligned (aliasWord a j) .word = true := by
  rw [aligned_iff, aliasWord_toNat hsram hj]
  change _ % 4 = 0
  omega

theorem aliasWord_sub_toNat : (aliasWord a j - 0x22000000#32).toNat = (a.toNat - 0x20000000) * 32 + 4 * j := by
  rw [BitVec.toNat_sub, aliasWord_toNat hsram hj]
  rw [inSram_iff] at hsram
  simp only [BitVec.toNat_ofNat]
  omega

theorem aliasByte_aliasWord : aliasByte (aliasWord a j) = a := by
  apply BitVec.eq_of_toNat_eq
  rw [aliasByte, BitVec.toNat_add, BitVec.toNat_ushiftRight, aliasWord_sub_toNat hsram hj, Nat.shiftRight_eq_div_pow]
  rw [inSram_iff] at hsram
  simp only [BitVec.toNat_ofNat]
  omega

theorem aliasBit_aliasWord : aliasBit (aliasWord a j) = j := by
  rw [aliasBit, aliasWord_sub_toNat hsram hj]
  omega

end

/-- Settles O38: the bit-band word stands for bit `j` of the byte at `a`, which the guarded store of that byte sets. -/
theorem aliasWordIsOneBit : Obligations.AliasWordIsOneBit := by
  unfold Obligations.AliasWordIsOneBit
  intro s a j v hwf hsram hj x guard hwindow
  have halias : inAlias x = true := inAlias_aliasWord hsram hj
  have hshape : (Width.word == .word && aligned x .word) = true := aligned_aliasWord hsram hj
  have hbyte : aliasByte x = a := aliasByte_aliasWord hsram hj
  have hbit : aliasBit x = j := aliasBit_aliasWord hsram hj
  rw [hostAccess_busRead_memory hwindow, hostAccess_busWrite_memory hwindow, State.busReadMemory, State.busWriteMemory,
    if_pos halias, if_pos halias, if_pos hshape, if_pos hshape,
    s.writeAlias_eq, State.readAlias, hbyte, hbit]
  set b := setBit (s.byteAt a) j (v.getLsbD 0) with hb
  have hstored (y : Addr) : (s.guardedStore a 1 b.toNat).byteAt y = if y = a then b else s.byteAt y := by
    rw [← State.byteAt_store_byte hwf, State.byteAt, State.byteAt, s.guardedStore_mem, s.store_mem]
  have htouches : s.touchesGuard a 1 = true ↔ guard := by
    rw [State.touchesGuard, State.touchesGuard, Bool.or_false, s.guardByte_iff]
  refine ⟨⟨_, rfl, fun k hk => ?bit, fun y hy => ?kept, fun hg => ?guard, fun hg => ?noGuard,
    s.guardedStore_changes .., fun hidle => s.guardedStore_idle _ _ _ (s.readsMemory_eq_false_iff.2 hidle),
    fun hbusy hmem => s.guardedStore_races _ _ _ (s.readsMemory_eq_true_iff.2 ⟨hbusy, hmem⟩)⟩, _, rfl, ?read⟩
  case bit => rw [hstored, if_pos rfl, hb, setBit_getLsbD _ _ _ hj hk]
  case kept => rw [hstored, if_neg hy]
  case guard => rw [s.guardedStore_fault, if_pos (htouches.2 hg)]
  case noGuard => rw [s.guardedStore_fault, if_neg (mt htouches.1 hg)]
  case read => rw [BitVec.toNat_setWidth_of_le (by decide), BitVec.toNat_ofBool]

end Sys2Proof.Machine

/-! ### Host writes and the transfer in flight (20_memory.md R56, 41_framebuffer.md R92, 44_composite.md R138). -/

namespace Sys2Proof.Machine

/-- In `t` each unit of the transfer in flight in `s` has its old value, or the one its bytes have in `t` if one of them
is stored to; a transfer of a slot keeps its units, and nothing else of the DMA channel changes. -/
def State.RacedBy (s t : State) (stored : Addr → Prop) : Prop :=
  t.dma = { s.dma with flight := { s.dma.flight with units := t.dma.flight.units } } ∧
  (s.dma.flight.fromSlot = true → t.dma.flight.units = s.dma.flight.units) ∧
  t.dma.flight.units.length = s.dma.flight.units.length ∧
  ∀ k, k < t.dma.flight.units.length →
    (t.dma.flight.units[k]? = s.dma.flight.units[k]? ∨ t.dma.flight.units[k]? = some (BitVec.ofNat 16
      (t.mem.load (s.dma.flight.origin + BitVec.ofNat 32 (k * s.dma.unit)) s.dma.unit))) ∧
    ((∀ i, i < s.dma.unit →
      ¬stored (s.dma.flight.origin + BitVec.ofNat 32 (k * s.dma.unit) + BitVec.ofNat 32 i)) →
        t.dma.flight.units[k]? = s.dma.flight.units[k]?)

theorem State.RacedBy.of_dma_eq {s t : State} (h : t.dma = s.dma) (stored : Addr → Prop) : s.RacedBy t stored := by
  rw [State.RacedBy, h]
  exact ⟨rfl, fun _ => rfl, rfl, fun _ _ => ⟨.inl rfl, fun _ => rfl⟩⟩

theorem State.RacedBy.congr {s t : State} {stored stored' : Addr → Prop} (h : s.RacedBy t stored)
    (hiff : ∀ x, stored x ↔ stored' x) : s.RacedBy t stored' := by
  rwa [← show stored = stored' from funext fun x => propext (hiff x)]

/-- A unit that shares a byte with a write has a byte that is written. -/
theorem exists_stored_of_unitTouched {a b : Addr} {unit n : Nat} (hunit : 0 < unit) (hn : 0 < n)
    (h : unitTouched a unit b n = true) : ∃ i, i < unit ∧ (a + BitVec.ofNat 32 i - b).toNat < n := by
  rw [unitTouched, Bool.or_eq_true, decide_eq_true_iff, decide_eq_true_iff] at h
  obtain hstart | hinside := h
  · exact ⟨0, hunit, by simpa using hstart⟩
  · exact ⟨(b - a).toNat, hinside, by rw [addr_add_offset, BitVec.sub_self]; exact hn⟩

/-- The store that all host writes share. -/
theorem State.store_racedBy {s : State} (hunit : 0 < s.dma.unit) (b : Addr) {n : Nat} (hn : 0 < n) (v : Nat) :
    s.RacedBy (s.store b n v) fun x => (x - b).toNat < n := by
  cases hreads : s.readsMemory with
  | false => exact .of_dma_eq (State.store_dma_races_of_not_reads hreads b n v).1 _
  | true =>
    have hslot : s.dma.flight.fromSlot = false := (s.readsMemory_eq_true_iff.1 hreads).2
    rw [State.store_of_reads hreads]
    refine ⟨rfl, fun h => absurd h (by simp [hslot]), raceUnits_length .., fun k hk => ?_⟩
    rw [raceUnits_length] at hk
    dsimp only
    rw [raceUnits_getElem?, List.getElem?_eq_getElem hk, Option.map_some]
    refine ⟨?oldOrNew, fun hkept => ?kept⟩
    case oldOrNew =>
      split
      · exact .inr rfl
      · exact .inl rfl
    case kept =>
      rw [if_neg]
      rw [Bool.and_eq_true]
      rintro ⟨htouched, -⟩
      obtain ⟨i, hi, hstored⟩ := exists_stored_of_unitTouched hunit hn htouched
      exact hkept i hi hstored

theorem State.guardedStore_racedBy {s : State} (hunit : 0 < s.dma.unit) (b : Addr) {n : Nat} (hn : 0 < n) (v : Nat) :
    s.RacedBy (s.guardedStore b n v) fun x => (x - b).toNat < n := by
  have hdma : (s.checkGuard b n).dma = s.dma := by simp
  have hstore := State.store_racedBy (hdma ▸ hunit : 0 < (s.checkGuard b n).dma.unit) b hn v
  rwa [State.RacedBy, hdma] at hstore

/-- The byte at an address is the only one written by a store of one byte. -/
theorem addr_sub_toNat_lt_one_iff (x a : Addr) : (x - a).toNat < 1 ↔ x = a := by
  bv_omega

theorem Width.bytes_pos (w : Width) : 0 < w.bytes := by
  cases w <;> decide

/-- A host write outside the window that is performed is one of a bit-band word or one of memory. -/
theorem State.busWriteMemory_next {s t : State} {a : Addr} {w : Width} {v : Word}
    (h : s.busWriteMemory a w v = .next t) :
    inAlias a = true ∧ t = s.writeAlias a v ∨ ¬inAlias a = true ∧ t = s.writeMemory a w v := by
  unfold State.busWriteMemory at h
  split at h
  case isTrue halias =>
    split at h <;> cases h
    exact .inl ⟨halias, rfl⟩
  case isFalse halias =>
    split at h
    · split at h <;> cases h
      exact .inr ⟨halias, rfl⟩
    · cases h

/-- Settles O54: each of the three is the shared store, of the bytes it names, or writes nothing. -/
theorem racingUnitIsOldOrNew : Obligations.RacingUnitIsOldOrNew := by
  unfold Obligations.RacingUnitIsOldOrNew
  intro s _ hunits raced
  have hunit : 0 < s.dma.unit := by omega
  refine ⟨fun t hset => ?setPixel, fun a w v t hwindow hwrite => ?busWrite,
    fun b n v hn _ => State.store_racedBy hunit b hn v⟩
  case setPixel =>
    by_cases hin : s.inBounds s.argX s.argY = true
    · rw [exec_setPixel_of_inBounds hin] at hset
      cases hset
      exact (State.store_racedBy hunit _ Nat.one_pos _).congr fun x => addr_sub_toNat_lt_one_iff x _
    · rw [exec_setPixel_of_not_inBounds hin] at hset
      cases hset
      have hdma : (s.raiseFault .pixel).dma = s.dma := rfl
      exact State.RacedBy.of_dma_eq hdma fun x => x = s.pixelAddr s.argX s.argY
  case busWrite =>
    rw [hostAccess_busWrite_memory hwindow] at hwrite
    obtain ⟨halias, rfl⟩ | ⟨halias, rfl⟩ := State.busWriteMemory_next hwrite
    · simp only [if_pos halias]
      exact (State.guardedStore_racedBy hunit _ Nat.one_pos _).congr fun x => addr_sub_toNat_lt_one_iff x _
    · simp only [if_neg halias]
      exact State.guardedStore_racedBy hunit a w.bytes_pos _

end Sys2Proof.Machine

/-! ### What each part of a step does to the transfer in flight (43_scanline_vga.md R117, R121, R123; 20_memory.md
R56). -/

namespace Sys2Proof.Machine

/-- From `s` to `t` the transfer in flight is kept, with units that `R` relates; or another starts, which draws a
DMA_LAT; or the channel is reset. -/
inductive TransferEffect (R : List Halfword → List Halfword → Prop) (s t : State) : Prop where
  | kept (hbusy : t.dma.busy = s.dma.busy) (hunits : R s.dma.flight.units t.dma.flight.units)
  | started (hbusy : t.dma.busy = true) (hdraw : s.draws < t.draws)
  | stopped (hidle : t.dma.busy = false) (hdone : t.dma.done = false)

/-- A host write may change units (R56), but not how many there are. -/
def SameLength (us vs : List Halfword) : Prop := vs.length = us.length

theorem TransferEffect.of_dma_eq {s t : State} (h : t.dma = s.dma) : TransferEffect SameLength s t :=
  .kept (by rw [h]) (by rw [h]; exact rfl)

theorem TransferEffect.congr {R : List Halfword → List Halfword → Prop} {s t u : State} (h : TransferEffect R s t)
    (hdma : u.dma = t.dma) (hdraws : u.draws = t.draws) : TransferEffect R s u := by
  cases h with
  | kept hbusy hunits => exact .kept (hdma ▸ hbusy) (hdma ▸ hunits)
  | started hbusy hdraw => exact .started (hdma ▸ hbusy) (hdraws ▸ hdraw)
  | stopped hidle hdone => exact .stopped (hdma ▸ hidle) (hdma ▸ hdone)

theorem TransferEffect.units_of_sameTransfer {R : List Halfword → List Halfword → Prop} {s t : State}
    (h : TransferEffect R s t) (hbusy : t.dma.busy = true) (hdraws : t.draws = s.draws) :
    R s.dma.flight.units t.dma.flight.units := by
  cases h with
  | kept _ hunits => exact hunits
  | started _ hdraw => omega
  | stopped hidle _ =>
    rw [hidle] at hbusy
    cases hbusy

/-- Only the completion of a transfer clears busy and leaves done set (R123). -/
theorem TransferEffect.done_eq_false {R : List Halfword → List Halfword → Prop} {s t : State}
    (h : TransferEffect R s t) (hbusy : s.dma.busy = true) (hidle : t.dma.busy = false) : t.dma.done = false := by
  cases h with
  | kept hkept _ =>
    rw [hkept, hbusy] at hidle
    cases hidle
  | started hstarted _ =>
    rw [hstarted] at hidle
    cases hidle
  | stopped _ hdone => exact hdone

theorem State.rasterLine_transfer (s : State) : TransferEffect (· = ·) s s.rasterLine := by
  have vga : TransferEffect (· = ·) s s.vgaLine := by
    cases harmed : s.armed with
    | true =>
      obtain ⟨hdma, -, hdraws⟩ := State.vgaTransfer_of_armed harmed
      refine .started ?_ ?_
      · rw [s.vgaLine_dma, hdma]
      · rw [s.vgaLine_draws, hdraws]
        exact Nat.lt_succ_self _
    | false =>
      have hdma : s.vgaLine.dma = { s.dma with src := s.vgaLine.dma.src } := by
        rw [s.vgaLine_dma, State.vgaTransfer_of_not_armed harmed]
      exact .kept (by rw [hdma]) (by rw [hdma])
  have composite (p : CompositeParams) (len : Nat) : TransferEffect (· = ·) s (s.compositeLine p len) := by
    refine .started ?_ ?_
    · rw [s.compositeLine_dma]
    · rw [s.compositeLine_draws]
      exact Nat.lt_succ_self _
  unfold State.rasterLine
  cases s.mode with
  | off => exact .kept rfl rfl
  | mono | color => exact vga
  | ntsc | pal => exact composite _ _

/-- A handler never writes memory, so a transfer that it keeps has the units it had (R57). -/
theorem HandlerEffect.transfer {q : Source} {s t : State} (h : HandlerEffect s q t) : TransferEffect (· = ·) s t := by
  cases h with
  | lock => exact .kept (by simp) (by simp)
  | raster => exact s.rasterLine_transfer
  | rewind =>
    have hbusy : s.rewind.dma.busy = s.dma.busy := by rw [s.rewind_dma]
    have hunits : s.dma.flight.units = s.rewind.dma.flight.units := by rw [s.rewind_dma]
    exact .kept hbusy hunits
  | complete => exact .kept rfl rfl

/-- A stop resets the channel of a Running machine, and does nothing while Off (45_lifecycle.md R153). -/
theorem State.stop_transfer {s t : State} (h : t.dma = s.stop.dma) : TransferEffect SameLength s t := by
  cases hlife : s.life with
  | off =>
    rw [State.stop_of_off hlife] at h
    exact .of_dma_eq h
  | running =>
    rw [State.stop_of_running hlife] at h
    exact .stopped (by rw [h]; rfl) (by rw [h]; rfl)

theorem StartEffect.transfer {s t : State} (h : StartEffect s t) : TransferEffect SameLength s t := by
  cases h with
  | rejected c => exact s.stop_transfer rfl
  | outOfMemory => exact s.stop_transfer rfl
  | @startVga mode => cases mode <;> exact .stopped rfl rfl
  | startComposite std => cases std <;> exact .stopped rfl rfl

theorem State.store_transfer (s : State) (a : Addr) (n v : Nat) : TransferEffect SameLength s (s.store a n v) := by
  cases hreads : s.readsMemory with
  | false => exact .of_dma_eq (State.store_dma_races_of_not_reads hreads a n v).1
  | true =>
    rw [State.store_of_reads hreads]
    exact .kept rfl (raceUnits_length ..)

theorem State.guardedStore_transfer (s : State) (a : Addr) (n v : Nat) :
    TransferEffect SameLength s (s.guardedStore a n v) := by
  have hstore := (s.checkGuard a n).store_transfer a n v
  have hdma : (s.checkGuard a n).dma = s.dma := by simp
  cases hstore with
  | kept hbusy hunits => exact .kept (hbusy.trans (congrArg _ hdma)) (by rwa [hdma] at hunits)
  | started hbusy hdraw => exact .started hbusy (by simp at hdraw)
  | stopped hidle hdone => exact .stopped hidle hdone

theorem CommandEffect.transfer {i : Instr} {s t : State} (h : CommandEffect s i t) : TransferEffect SameLength s t := by
  cases h with
  | start h => exact h.transfer
  | endOff => exact .of_dma_eq rfl
  | endRunning => exact s.stop_transfer rfl
  | setPixel => exact (s.store_transfer _ _ _).congr rfl rfl
  | setMonitorRange | pixelFault | getPixel => exact .of_dma_eq rfl
  | wait w => exact .of_dma_eq (by simp)

theorem AccessEffect.transfer {s t : State} (h : AccessEffect s t) : TransferEffect SameLength s t := by
  cases h with
  | command c hd h => exact (command_effect (decodeCmd_ok hd).2 h).transfer
  | writeMemory a w v => exact s.guardedStore_transfer _ _ _
  | writeAlias a v => exact s.guardedStore_transfer _ _ _
  | _ => exact .of_dma_eq (by simp)

/-! One step: the units of a transfer that stays in flight, and the record of one that ends. -/

theorem State.tick_units (s : State) (h : s.tick.dma.busy = true) : s.tick.dma.flight.units = s.dma.flight.units := by
  obtain ⟨-, -, -, hunits, -⟩ := s.tick_time h
  exact hunits

/-- A transfer that stays in flight keeps the number of its units, and with no host move to come also their values. -/
theorem step_units {s t : State} (h : step s = .next t) (hsame : s.sameTransfer t = true) :
    SameLength s.dma.flight.units t.dma.flight.units ∧
      (s.inbox = [] → t.inbox = [] ∧ t.dma.flight.units = s.dma.flight.units) := by
  rw [State.sameTransfer, Bool.and_eq_true, beq_iff_eq] at hsame
  obtain ⟨hbusy, hdraws⟩ := hsame
  cases step_effect h with
  | @handler q hq u hu =>
    have hunits := (handler_effect hu).transfer.units_of_sameTransfer (by simpa using hbusy) (by simpa using hdraws)
    have hinbox : u.inbox = s.inbox := (handler_effect hu).sameHost.inbox
    rw [u.leaveHandler_inbox, u.leaveHandler_dma, hinbox, ← hunits]
    exact ⟨rfl, fun hi => ⟨hi, rfl⟩⟩
  | tick hq => exact ⟨congrArg _ (s.tick_units hbusy), fun hi => ⟨by simpa using hi, s.tick_units hbusy⟩⟩
  | idle hq hf rest hi =>
    exact ⟨congrArg _ (State.tick_units _ hbusy), fun hnil => by rw [hnil] at hi; cases hi⟩
  | access hq hf a rest hi ha he =>
    exact ⟨he.transfer.units_of_sameTransfer hbusy hdraws, fun hnil => by rw [hnil] at hi; cases hi⟩

/-- A step that ends a transfer with done set is the tick of its completion, which records it (R123, R131). -/
theorem step_lastSent {s t : State} (h : step s = .next t) (hbusy : s.dma.busy = true) (hidle : t.dma.busy = false)
    (hdone : t.dma.done = true) : t.lastSent = some s.dma.flight.sent := by
  have tick {u : State} (hu : u.dma = s.dma) (hidle : u.tick.dma.busy = false) :
      u.tick.lastSent = some s.dma.flight.sent := by
    have hc : u.completes = true := by
      by_contra hc
      rw [u.tick_dma_of_busy (Bool.eq_false_iff.2 hc) (hu ▸ hbusy)] at hidle
      rw [hu, hbusy] at hidle
      cases hidle
    rw [u.tick_lastSent, if_pos hc, hu]
  cases step_effect h with
  | handler q hq hu =>
    have hfalse := (handler_effect hu).transfer.done_eq_false hbusy (by simpa using hidle)
    rw [State.leaveHandler_dma, hfalse] at hdone
    cases hdone
  | tick hq => exact tick rfl hidle
  | idle hq hf rest hi => exact tick rfl hidle
  | access hq hf a rest hi ha he =>
    rw [he.transfer.done_eq_false hbusy hidle] at hdone
    cases hdone

/-! The units a transfer is sent with. -/

/-- What holds of the units at each state of a transfer holds of those it ends with. -/
theorem State.unitsAtEnd_length (n : Nat) (s : State) : (s.unitsAtEnd n).length = s.dma.flight.units.length := by
  induction n generalizing s with
  | zero => rfl
  | succ n ih =>
    rw [State.unitsAtEnd]
    split
    case h_1 t hstep =>
      split
      case isTrue hsame => exact (ih t).trans (step_units hstep hsame).1
      case isFalse => rfl
    all_goals rfl

theorem State.unitsAtEnd_of_no_move (n : Nat) {s : State} (h : s.inbox = []) :
    s.unitsAtEnd n = s.dma.flight.units := by
  induction n generalizing s with
  | zero => rfl
  | succ n ih =>
    rw [State.unitsAtEnd]
    split
    case h_1 t hstep =>
      split
      case isTrue hsame =>
        obtain ⟨hinbox, hunits⟩ := (step_units hstep hsame).2 h
        exact (ih hinbox).trans hunits
      case isFalse => rfl
    all_goals rfl

/-- The units sent are the same at the next state of the transfer: the bound has room for the step. -/
theorem State.sentUnits_step {s t : State} (h : step s = .next t) (hsame : s.sameTransfer t = true) :
    t.sentUnits = s.sentUnits := by
  have hlt := State.stepsLeft_lt h hsame
  obtain ⟨n, hn⟩ := Nat.exists_eq_add_one_of_ne_zero (Nat.ne_zero_of_lt hlt)
  rw [State.sentUnits, State.sentUnits, hn, State.unitsAtEnd, h]
  dsimp only
  rw [if_pos hsame]
  exact State.unitsAtEnd_of_le le_rfl (by omega)

/-- A transfer that ends in the next step is sent with the units it holds. -/
theorem State.sentUnits_of_ends {s t : State} (h : step s = .next t) (hidle : t.dma.busy = false) :
    s.sentUnits = s.dma.flight.units := by
  have hsame : ¬s.sameTransfer t = true := by simp [State.sameTransfer, hidle]
  rw [State.sentUnits]
  cases s.stepsLeft with
  | zero => rfl
  | succ n =>
    rw [State.unitsAtEnd, h]
    exact if_neg hsame

/-! The pins: the unit and the bit are the quotients of the time since the first of them. -/

/-- In the interval of length `d` with number `i` after `lat`, the quotient of the time is `i`. -/
theorem sub_div_eq {lat age i d : Nat} (hlow : lat + i * d ≤ age) (hhigh : age < lat + (i + 1) * d) :
    (age - lat) / d = i :=
  Nat.div_eq_of_lt_le (by omega) (by omega)

theorem State.sendingFor_eq {s : State} {dst : DmaDst} (hbusy : s.dma.busy = true) (hdst : s.dma.dst = dst)
    (hlat : s.dma.flight.lat ≤ s.dma.flight.age) (htime : 0 < s.unitTime) :
    s.sendingFor dst = some (s.dma.flight.age - s.dma.flight.lat) := by
  simp [State.sendingFor, hbusy, hdst, hlat, htime]

theorem State.dataPin_of_unit {s : State} {k b : Nat} {u : Halfword} (hbusy : s.dma.busy = true)
    (hunit : s.sentUnits[k]? = some u) (hdst : s.dma.dst = .spi) (hpin : s.gpio.data = .spi) (hbits : s.spi.bits = 16)
    (hb : b < 16) (hlow : s.dma.flight.lat + (16 * k + b) * s.spi.div ≤ s.dma.flight.age)
    (hhigh : s.dma.flight.age < s.dma.flight.lat + (16 * k + b + 1) * s.spi.div) :
    s.dataPin = .driven (u.getLsbD (15 - b)) := by
  have hdiv : 0 < s.spi.div := Nat.pos_of_ne_zero fun h0 => by simp only [h0, Nat.mul_zero] at hlow hhigh; omega
  have htime : 0 < s.unitTime := by
    rw [State.unitTime_eq hbits, hdst]
    dsimp only
    omega
  have hbit := sub_div_eq hlow hhigh
  rw [State.dataPin, hpin, State.sendingFor_eq hbusy hdst (by omega) htime]
  dsimp only
  rw [hbit, show (16 * k + b) / 16 = k by omega, show (16 * k + b) % 16 = b by omega, hunit]

theorem State.portByte_of_unit {s : State} {k : Nat} {u : Halfword} (hbusy : s.dma.busy = true)
    (hunit : s.sentUnits[k]? = some u) (hdst : s.dma.dst = .port) (hpin : s.gpio.port = .port)
    (hlow : s.dma.flight.lat + k * s.port.div ≤ s.dma.flight.age)
    (hhigh : s.dma.flight.age < s.dma.flight.lat + (k + 1) * s.port.div) :
    s.portByte = some (u.setWidth 8) := by
  have htime : 0 < s.unitTime := by
    rw [State.unitTime, hdst]
    exact Nat.pos_of_ne_zero fun h0 => by simp only [h0, Nat.mul_zero] at hlow hhigh; omega
  rw [State.portByte, hpin, State.sendingFor_eq hbusy hdst (by omega) htime]
  dsimp only
  rw [sub_div_eq hlow hhigh, hunit, Option.map_some]

/-- Settles O53: the units sent follow the transfer step by step, and the pins show them by quotients of its age. -/
theorem transferUnitsAppearOnThePins : Obligations.TransferUnitsAppearOnThePins := by
  unfold Obligations.TransferUnitsAppearOnThePins
  intro s
  refine ⟨fun h => by rw [State.dataPin, h], fun h => by rw [State.dataPin, h], fun h => by rw [State.portByte, h],
    fun hbusy => ⟨State.unitsAtEnd_length _ s, State.unitsAtEnd_of_no_move _, fun t hstep =>
      ⟨fun hbusyT hdraws => State.sentUnits_step hstep ?same, fun hidle hdone => ?record⟩⟩,
    fun hbusy k u hunit => ⟨fun hdst hpin hbits b hb => State.dataPin_of_unit hbusy hunit hdst hpin hbits hb,
      fun hdst hpin => State.portByte_of_unit hbusy hunit hdst hpin⟩⟩
  case same => rw [State.sameTransfer, hbusyT, hdraws, beq_self_eq_true, Bool.and_self]
  case record =>
    rw [step_lastSent hstep hbusy hidle hdone, State.sentUnits_of_ends hstep hidle]
    rfl

end Sys2Proof.Machine
